-- ==== Sys2Proof/Word.lean ====
section
/-!
DEFINITION. The word types of the engine (00_scope.md rules R8, R9): every quantity is an unsigned
bit vector, bit 0 the least significant, and a byte sequence is a list with index 0 first.
-/

namespace Sys2Proof

/-- A byte (R9). -/
abbrev Byte := BitVec 8

/-- A 16-bit CRC value (R21). -/
abbrev Crc := BitVec 16

/-- A 32-bit word: a command word, a bus value, an operand register (R23, R62, R90). -/
abbrev Word := BitVec 32

/-- A byte sequence; index 0 is the front (R9). -/
abbrev Bytes := List Byte

/-- A 3-bit sequence or acknowledgement number (R22, R100). -/
abbrev SeqNum := BitVec 3

/-- The 4-bit packet kind of a header (R100). -/
abbrev Kind := BitVec 4

end Sys2Proof
end

