-- ==== Sys2Proof/Syntax.lean ====
section
/-!
DEFINITION. The host's accesses (20_memory.md rules R61 to R63) and the instructions: one constructor
of `Instr` for each of the 29 rows of opcode_table.json (30_encoding.md rule R94, 44, 70).
-/

namespace Sys2Proof

/-- What the host does at the engine's interface (R62). `off` is the byte offset from `CSF_BASE`,
`size` the width in bytes: R63 gives meaning to aligned accesses of 4 bytes only, and the other ones
are here so that the model can refuse them. -/
inductive Access where
  | regWrite (off size : Nat) (v : Word)
  | regRead (off size : Nat)
  | reset
deriving DecidableEq, Repr

/-- The sixteen word offsets of the window, in the order of R61. -/
inductive Reg where
  | cmd | status | din | dout
  | crc | seq | hdr | dlen
  | icount | ocount | ptype | reserved2C
  | mode | sdsize | blsize | appsize
deriving DecidableEq, Repr

/-- The instructions: the 24 command rows of R94, the four port accesses and the reset action. -/
inductive Instr where
  -- control commands (R220 to R223)
  | nop
  | clrErr
  | flush (fi fo : Bool)
  | seqClr
  -- checksum commands (R134 to R138)
  | crcInit
  | crcByte (byte : Byte)
  | crcBuf
  | crc16
  | crcPut
  -- codec commands (R154 to R157)
  | encode
  | decode
  | wrap
  | unwrap
  -- framer commands (R174, R175, R177)
  | frame (rel dip : Bool) (kind : Kind) (seq : SeqNum)
  | frames (rel dip : Bool) (kind : Kind)
  | parse
  -- marshalling commands (R202 to R209)
  | mkplInit
  | mkplStart
  | mkplData
  | mkplStopData
  | mkplValidate
  | mkplActivate
  | mkplPing
  | classify
  -- port accesses (R226 to R229)
  | push (byte : Byte)
  | pop
  | rd (reg : Reg)
  | wr (reg : Reg) (v : Word)
  -- the host action Reset (R330)
  | reset
deriving DecidableEq, Repr

end Sys2Proof
end

