-- ==== Sys2Proof/WellFormed.lean ====
section
/-!
DEFINITION. Which terms of `Instr` stand for an access of the spec. The widths of the operands are in
their types (R91); what is left is which offset an access of the kind `RD` or `WR` may name.
-/

namespace Sys2Proof

/-- `RD reg` is a read "for `off` other than `0x0C`" (R228): the read of `DOUT` is `POP`. -/
def Reg.rdOk (r : Reg) : Bool := r != .dout

/-- `WR reg, v` is a write "for `off` other than `0x00` and `0x08`" (R229): the write of `CMD` is a
command and the write of `DIN` is `PUSH`. -/
def Reg.wrOk (r : Reg) : Bool := r != .cmd && r != .din

/-- The check on a term: every command, `PUSH`, `POP` and `RESET` is well formed by its type. -/
def Instr.wellFormed : Instr → Bool
  | .nop => true
  | .clrErr => true
  | .flush _ _ => true
  | .seqClr => true
  | .crcInit => true
  | .crcByte _ => true
  | .crcBuf => true
  | .crc16 => true
  | .crcPut => true
  | .encode => true
  | .decode => true
  | .wrap => true
  | .unwrap => true
  | .frame _ _ _ _ => true
  | .frames _ _ _ => true
  | .parse => true
  | .mkplInit => true
  | .mkplStart => true
  | .mkplData => true
  | .mkplStopData => true
  | .mkplValidate => true
  | .mkplActivate => true
  | .mkplPing => true
  | .classify => true
  | .push _ => true
  | .pop => true
  | .rd r => r.rdOk
  | .wr r _ => r.wrOk
  | .reset => true

end Sys2Proof
end

