-- ==== Sys2Proof/Decode.lean ====
section
/-!
DEFINITION. From a host access to the instruction it is (20_memory.md rules R61 to R64, 30_encoding.md
rules R90 to R94) and back. `decode` is total and rejects by name; `encode` is written from the same
tables. After them, the opcode table's own numbering of an instruction's bits (`decodeTableWord`).
-/

namespace Sys2Proof

/-- Why an access is no instruction. -/
inductive DecodeError where
  /-- The word written to `CMD` is illegal (R93). The engine's answer is the fault `IllegalCommand`,
  a next state, not a stop of the model. -/
  | illegalCommand
  /-- Not one aligned 32-bit word (R63): "a model should refuse the access". -/
  | notAlignedWord
  /-- Outside the sixteen word offsets (R64): "not the engine's to answer". -/
  | outsideWindow
deriving DecidableEq, Repr

/-! ## Offsets -/

/-- The offset of a register or port of the window (R61). -/
def Reg.offset : Reg → Nat
  | .cmd => 0x00
  | .status => 0x04
  | .din => 0x08
  | .dout => 0x0C
  | .crc => 0x10
  | .seq => 0x14
  | .hdr => 0x18
  | .dlen => 0x1C
  | .icount => 0x20
  | .ocount => 0x24
  | .ptype => 0x28
  | .reserved2C => 0x2C
  | .mode => 0x30
  | .sdsize => 0x34
  | .blsize => 0x38
  | .appsize => 0x3C

/-- The register or port at an offset (R61); none outside the window. -/
def regAt : Nat → Option Reg
  | 0x00 => some .cmd
  | 0x04 => some .status
  | 0x08 => some .din
  | 0x0C => some .dout
  | 0x10 => some .crc
  | 0x14 => some .seq
  | 0x18 => some .hdr
  | 0x1C => some .dlen
  | 0x20 => some .icount
  | 0x24 => some .ocount
  | 0x28 => some .ptype
  | 0x2C => some .reserved2C
  | 0x30 => some .mode
  | 0x34 => some .sdsize
  | 0x38 => some .blsize
  | 0x3C => some .appsize
  | _ => none

/-- Where an access goes: R63's width and alignment first, then the window of R61. -/
def locate (off size : Nat) : Except DecodeError Reg :=
  if size ≠ 4 ∨ off % 4 ≠ 0 then .error .notAlignedWord
  else match regAt off with
    | some r => .ok r
    | none => .error .outsideWindow

/-! ## Command words -/

/-- One bit of a word, as the boolean operands `fi`, `fo`, `rel`, `dip` are read (R92). -/
def bitOf (w : Word) (i : Nat) : Bool := w.getLsbD i

/-- A row of the opcode map: `w &&& mask = pat` selects it, and `read` takes the operands. -/
structure CommandRow where
  pat : Word
  mask : Word
  read : Word → Instr

/-- The opcode map of R94, row by row, with the `ARG` layouts of R91. -/
def commandRows : List CommandRow :=
  [ ⟨0x00000000, 0xFFFFFFFF, fun _ => .nop⟩,
    ⟨0x00010000, 0xFFFFFFFF, fun _ => .clrErr⟩,
    ⟨0x00020000, 0xFFFFFFFC, fun w => .flush (bitOf w 0) (bitOf w 1)⟩,
    ⟨0x00030000, 0xFFFFFFFF, fun _ => .seqClr⟩,
    ⟨0x00100000, 0xFFFFFFFF, fun _ => .crcInit⟩,
    ⟨0x00110000, 0xFFFFFF00, fun w => .crcByte (w.extractLsb' 0 8)⟩,
    ⟨0x00120000, 0xFFFFFFFF, fun _ => .crcBuf⟩,
    ⟨0x00130000, 0xFFFFFFFF, fun _ => .crc16⟩,
    ⟨0x00140000, 0xFFFFFFFF, fun _ => .crcPut⟩,
    ⟨0x00200000, 0xFFFFFFFF, fun _ => .encode⟩,
    ⟨0x00210000, 0xFFFFFFFF, fun _ => .decode⟩,
    ⟨0x00220000, 0xFFFFFFFF, fun _ => .wrap⟩,
    ⟨0x00230000, 0xFFFFFFFF, fun _ => .unwrap⟩,
    ⟨0x00300000, 0xFFFFF038, fun w =>
      .frame (bitOf w 7) (bitOf w 6) (w.extractLsb' 8 4) (w.extractLsb' 0 3)⟩,
    ⟨0x00310000, 0xFFFFF03F, fun w => .frames (bitOf w 7) (bitOf w 6) (w.extractLsb' 8 4)⟩,
    ⟨0x00320000, 0xFFFFFFFF, fun _ => .parse⟩,
    ⟨0x00400000, 0xFFFFFFFF, fun _ => .mkplInit⟩,
    ⟨0x00400001, 0xFFFFFFFF, fun _ => .mkplStart⟩,
    ⟨0x00400002, 0xFFFFFFFF, fun _ => .mkplData⟩,
    ⟨0x00400003, 0xFFFFFFFF, fun _ => .mkplStopData⟩,
    ⟨0x00400004, 0xFFFFFFFF, fun _ => .mkplValidate⟩,
    ⟨0x00400005, 0xFFFFFFFF, fun _ => .mkplActivate⟩,
    ⟨0x00400006, 0xFFFFFFFF, fun _ => .mkplPing⟩,
    ⟨0x00410000, 0xFFFFFFFF, fun _ => .classify⟩ ]

/-- `w & mask == match` (R94). -/
def CommandRow.selects (r : CommandRow) (w : Word) : Bool := w &&& r.mask == r.pat

/-- The command a word written to `CMD` selects; none when the word is illegal (R93). -/
def decodeCommand (w : Word) : Option Instr :=
  (commandRows.find? (fun r => r.selects w)).map (fun r => r.read w)

/-! ## Accesses -/

/-- A write at a located offset: a command at `CMD`, `PUSH` at `DIN` (bits `[31:8]` ignored, R65), `WR`
elsewhere (R229). -/
def decodeWrite (r : Reg) (v : Word) : Except DecodeError Instr :=
  match r with
  | .cmd =>
    match decodeCommand v with
    | some i => .ok i
    | none => .error .illegalCommand
  | .din => .ok (.push (v.extractLsb' 0 8))
  | r => .ok (.wr r v)

/-- A read at a located offset: `POP` at `DOUT` (R227), `RD` elsewhere (R228). -/
def decodeRead (r : Reg) : Instr :=
  match r with
  | .dout => .pop
  | r => .rd r

/-- The instruction an access is (R62). -/
def decode : Access → Except DecodeError Instr
  | .regWrite off size v =>
    match locate off size with
    | .ok r => decodeWrite r v
    | .error e => .error e
  | .regRead off size =>
    match locate off size with
    | .ok r => .ok (decodeRead r)
    | .error e => .error e
  | .reset => .ok .reset

/-! ## The encoder -/

/-- One bit of a command word. -/
def bit1 (b : Bool) : BitVec 1 := BitVec.ofBool b

/-- The word of a command, field by field as R90 and R91 lay it out: `RSV`, `OP`, then `ARG`. None for
what is no command. -/
def commandWord : Instr → Option Word
  | .nop => some 0x00000000
  | .clrErr => some 0x00010000
  | .flush fi fo => some (0x00#8 ++ 0x02#8 ++ 0#14 ++ bit1 fo ++ bit1 fi)
  | .seqClr => some 0x00030000
  | .crcInit => some 0x00100000
  | .crcByte b => some (0x00#8 ++ 0x11#8 ++ 0#8 ++ b)
  | .crcBuf => some 0x00120000
  | .crc16 => some 0x00130000
  | .crcPut => some 0x00140000
  | .encode => some 0x00200000
  | .decode => some 0x00210000
  | .wrap => some 0x00220000
  | .unwrap => some 0x00230000
  | .frame rel dip kind seq => some (0x00#8 ++ 0x30#8 ++ 0#4 ++ kind ++ bit1 rel ++ bit1 dip ++ 0#3 ++ seq)
  | .frames rel dip kind => some (0x00#8 ++ 0x31#8 ++ 0#4 ++ kind ++ bit1 rel ++ bit1 dip ++ 0#6)
  | .parse => some 0x00320000
  | .mkplInit => some 0x00400000
  | .mkplStart => some 0x00400001
  | .mkplData => some 0x00400002
  | .mkplStopData => some 0x00400003
  | .mkplValidate => some 0x00400004
  | .mkplActivate => some 0x00400005
  | .mkplPing => some 0x00400006
  | .classify => some 0x00410000
  | .push _ => none
  | .pop => none
  | .rd _ => none
  | .wr _ _ => none
  | .reset => none

/-- An aligned 32-bit write of a register or port. -/
def wordWrite (r : Reg) (v : Word) : Access := .regWrite r.offset 4 v

/-- An aligned 32-bit read of a register or port. -/
def wordRead (r : Reg) : Access := .regRead r.offset 4

/-- The access of an instruction (R62): `PUSH b` is `RegWrite(0x08, zext_32(b))`, `POP` is
`RegRead(0x0C)`, `RD reg` and `WR reg, v` are the accesses at the register's offset, every command is
`RegWrite(0x00, its command word)`. -/
def encode (i : Instr) : Access :=
  match i with
  | .push b => wordWrite .din (b.setWidth 32)
  | .pop => wordRead .dout
  | .rd r => wordRead r
  | .wr r v => wordWrite r v
  | .reset => .reset
  | i => wordWrite .cmd ((commandWord i).getD 0)

/-! ## The opcode table's numbering -/

/-- The access that opcode_table.json's bits `w` stand for. A command row gives all 32 bits of the
command word. A port row gives the bits of an offset only (log entry 7): the offset of `DIN` is taken
as a write of the value 0 (`PUSH`), any other as a read (`POP` at `DOUT`). -/
def tableAccess (nbits w : Nat) : Access :=
  if nbits ≤ 8 then
    (if w = Reg.din.offset then .regWrite w 4 0 else .regRead w 4)
  else .regWrite Reg.cmd.offset 4 (BitVec.ofNat 32 w)

/-- The instruction the decoder reads from the table's bits; none where it refuses. -/
def decodeTableWord (nbits w : Nat) : Option Instr :=
  match decode (tableAccess nbits w) with
  | .ok i => some i
  | .error _ => none

end Sys2Proof
end

