-- ==== Sys2Proof/Config.lean ====
section
/-!
DEFINITION. The configuration record of the engine (00_scope.md rules R6, R7) and its OPEN
parameters. The decided values stand in Machine/Decided.lean.
-/

namespace Sys2Proof

/-- `OPC_VALIDATE` (R6, R108): OPEN, "the model takes it as an argument". No body: every claim holds
for every value (log entry 4). -/
opaque Config.opcValidate : Word

/-- `OPC_ACTIVATE` (R6, R108): OPEN, as `Config.opcValidate` (log entry 4). -/
opaque Config.opcActivate : Word

/-- `CSF_BASE` (R60): where the window sits in the host's address map. OPEN; "no rule depends on it",
and nothing in this model reads it: an access names its offset from `CSF_BASE` (R61, log entry 5). -/
opaque Config.csfBase : Nat

/-- The parameters of R6, all eighteen, in one record. The functions of the engine take it as an
argument, so that a law is stated for every value (U1, U2, U3). The fields of a header are as wide as R100
writes them and `SEQ` as R22 does, whatever `lenBits` and `seqBits` are: those two set the longest payload
and the wrap of the counter. -/
structure Params where
  /-- The frame-boundary byte, `BOUNDARY`. -/
  boundary : Byte
  /-- The escape byte, `ESC`. -/
  esc : Byte
  /-- `ESC_BOUNDARY`: after `ESC` it stands for `BOUNDARY`. -/
  escBoundary : Byte
  /-- `ESC_ESC`: after `ESC` it stands for `ESC`. -/
  escEsc : Byte
  /-- The initial CRC value, `CRC_INIT`. -/
  crcInit : Crc
  /-- The update of the CRC by one byte, `crc_step`. -/
  crcStep : Crc → Byte → Crc
  /-- `LEN_BITS`: the width of the header's length field. -/
  lenBits : Nat
  /-- `MAX_PAYLOAD`, derived from `LEN_BITS`. -/
  maxPayload : Nat := 2 ^ lenBits - 1
  /-- `SEQ_BITS`: the width of the Sequence Counter. -/
  seqBits : Nat
  /-- `IBUF_CAP`. -/
  ibufCap : Nat
  /-- `OBUF_CAP`. -/
  obufCap : Nat
  opcInit : Word
  opcPing : Word
  opcStart : Word
  opcData : Word
  opcStopData : Word
  opcValidate : Word
  opcActivate : Word

/-- The constraints of R7 without which the round trip of R152 is lost. -/
def Params.Legal (c : Params) : Prop :=
  c.boundary ≠ c.esc ∧ c.escBoundary ≠ c.escEsc ∧ c.escBoundary ≠ c.boundary ∧ c.escEsc ≠ c.boundary

end Sys2Proof
end

