-- ==== Sys2Proof/Machine/Decided.lean ====
section
/-!
DEFINITION. The decided parameter values of 00_scope.md rule R6 (decisions D3, D5, D6, D25) and the
decided `crc_step` of 40_crc.md rule R131.
-/

namespace Sys2Proof.Machine

/-- One shift of R131's loop: the bit tested is the one before the shift. -/
def crcShift (c : Crc) : Crc :=
  if c.getLsbD 15 then (c <<< 1) ^^^ 0x1021#16 else c <<< 1

/-- `n` shifts of R131's loop. -/
def crcShifts : Nat → Crc → Crc
  | 0, c => c
  | n + 1, c => crcShifts n (crcShift c)

/-- `crc_step(c, b)` (R131): polynomial 0x1021, most significant bit first, no reflection. -/
def crcStep (c : Crc) (b : Byte) : Crc := crcShifts 8 (c ^^^ (b.setWidth 16 <<< 8))

/-- `crc_step'(c, b)` (R139): the byte-at-a-time form without a loop, for cross-checking `crcStep`. -/
def crcStepNoLoop (c : Crc) (b : Byte) : Crc :=
  let c1 := (c >>> 8) ||| (c <<< 8)
  let c2 := c1 ^^^ b.setWidth 16
  let c3 := c2 ^^^ ((c2 &&& 0x00FF#16) >>> 4)
  let c4 := c3 ^^^ (c3 <<< 12)
  c4 ^^^ ((c4 &&& 0x00FF#16) <<< 5)

/-- The engine's configuration: the decided values of R6, and the OPEN opcodes left opaque (log
entries 3 and 4). -/
def csf : Params where
  boundary := 0xC0
  esc := 0xDB
  escBoundary := 0xDC
  escEsc := 0xDD
  crcInit := 0xFFFF
  crcStep := crcStep
  lenBits := 12
  seqBits := 3
  ibufCap := 8204
  obufCap := 8204
  opcInit := 1
  opcPing := 2
  opcStart := 3
  opcData := 4
  opcStopData := 5
  opcValidate := Config.opcValidate
  opcActivate := Config.opcActivate

end Sys2Proof.Machine
end

