-- ==== Sys2Proof/Machine/State.lean ====
section
/-!
DEFINITION. The state of the engine (10_state.md rule R20), the causes of its faults (60_exceptions.md
rule R291), the reasons a step of the model can stop, and the state after reset (R38).
-/

namespace Sys2Proof.Machine

/-- The state. The first twelve fields are the tuple of R20, which is the whole state of the engine.
The last two are the model's own, the host's side of the interface (log entry 1). -/
structure State where
  /-- The CRC register (R21). -/
  crc : Crc
  /-- The Sequence Counter (R22). -/
  seq : SeqNum
  /-- The fault latch (R25): 0, or the code of the first fault since the last clear. -/
  err : BitVec 4
  /-- The input buffer (R26). -/
  ibuf : Bytes
  /-- The output buffer (R27). -/
  obuf : Bytes
  /-- The header read by the last `PARSE` (R28). -/
  hdr : BitVec 26
  /-- The number of bytes the last `PARSE` decoded (R29). -/
  dlen : BitVec 14
  /-- The result of the last `CLASSIFY` (R30). -/
  ptype : BitVec 4
  /-- Operand register `MODE` (R23). -/
  mode : Word
  /-- Operand register `SDSIZE` (R23). -/
  sdsize : Word
  /-- Operand register `BLSIZE` (R23). -/
  blsize : Word
  /-- Operand register `APPSIZE` (R23). -/
  appsize : Word
  /-- MODEL: the host accesses issued and not yet served, oldest first (R62, R70). -/
  pending : List Access
  /-- MODEL: the words the host has been returned by its reads, oldest first (R62). -/
  returned : List Word
deriving DecidableEq, Repr

/-- The fault causes of the engine (R291). Raising one is a next state: `ERR` latches its code (R295). -/
inductive Cause where
  | illegalCommand
  | inputOverflow
  | outputOverflow
  | lengthOverflow
  | badStuffing
  | noFrame
  | shortResponse
  | malformedHeader
  | badOperand
deriving DecidableEq, Repr

/-- The faults that stop the machine: none. Every fault of R291 is latched and the engine goes on
(R295, R296), and "the engine cannot hang" (R345). Safe: there is nothing to raise (log entry 10). -/
inductive Fault where
deriving DecidableEq, Repr

/-- The reasons the model gives no step. -/
inductive Refusal where
  /-- An instruction with no meaning yet. No arm of `exec` raises it. Safe. -/
  | notModelled (mnemonic : String)
  /-- Raised by serving an access that is not one aligned 32-bit word: "a model should refuse the
  access (give it no step)" (R63, U14). Safe: nothing is claimed of such an access. -/
  | notAlignedWord
  /-- Raised by serving an access at an offset outside the window: "not the engine's to answer" (R64,
  U15). Safe. -/
  | outsideWindow
  /-- Raised by `exec` for a term that is not `wellFormed`: an `RD` that names `DOUT`, a `WR` that
  names `CMD` or `DIN`. `decode` gives no such term: those accesses are `POP`, a command and `PUSH`
  (R227 to R229). Safe (log entry 8). -/
  | accessOfAnotherInstruction
deriving DecidableEq, Repr

/-- The state after reset (R38, R330); no access is pending and none has returned (log entry 1). -/
def State.reset : State where
  crc := csf.crcInit
  seq := 0
  err := 0
  ibuf := []
  obuf := []
  hdr := 0
  dlen := 0
  ptype := 15
  mode := 0
  sdsize := 0
  blsize := 0
  appsize := 0
  pending := []
  returned := []

end Sys2Proof.Machine
end

