-- ==== Sys2Proof/Machine/Flags.lean ====
section
/-!
DEFINITION. Every code and flag the engine computes: the fault codes (60_exceptions.md rule R291), the
`STATUS` word (10_state.md rule R31), the fields of `HDR` (R28), the header checksum test
(30_encoding.md rule R101) and the packet type codes (R108).
-/

namespace Sys2Proof.Machine

/-- The value of `ERR` for a cause (R291). -/
def Cause.code : Cause → BitVec 4
  | .illegalCommand => 1
  | .inputOverflow => 2
  | .outputOverflow => 3
  | .lengthOverflow => 4
  | .badStuffing => 5
  | .noFrame => 6
  | .shortResponse => 7
  | .malformedHeader => 8
  | .badOperand => 9

/-- `STATUS` (R31): `ERR`, `IEMPTY`, `IFULL`, `OEMPTY`, `OFULL`, and zeros above. -/
def statusWord (s : State) : Word :=
  0#24 ++ BitVec.ofBool (s.obuf.length == csf.obufCap) ++ BitVec.ofBool (s.obuf.length == 0)
    ++ BitVec.ofBool (s.ibuf.length == csf.ibufCap) ++ BitVec.ofBool (s.ibuf.length == 0) ++ s.err

/-- A count as a 14-bit register reads it, zero-extended to 32 bits (R32, R61). -/
def countWord (n : Nat) : Word := (BitVec.ofNat 14 n).setWidth 32

/-! ## The header checksum (R101) -/

/-- The checksum byte: the two's-complement negation of the sum of the first three bytes. -/
def headerChecksum (h0 h1 h2 : Byte) : Byte := -(h0 + h1 + h2)

/-- A header is checksum-valid when its four bytes sum to 0 mod 256. -/
def checksumValid (h0 h1 h2 h3 : Byte) : Bool := h0 + h1 + h2 + h3 == 0

/-! ## The fields of `HDR` (R28) -/

/-- What `parse` reads of a header (R176): doc00's `parseAck` record, with `rel` and `dip`. -/
structure HeaderFields where
  ok : Bool
  len : BitVec 12
  kind : Kind
  rel : Bool
  dip : Bool
  ack : SeqNum
  seq : SeqNum
deriving DecidableEq, Repr

/-- `HDR` from its `VALID` bit and the fields: `VALID<<25 | ok<<24 | len<<12 | kind<<8 | rel<<7 | dip<<6
| ack<<3 | seq` (R28, R177). -/
def hdrWord (valid : Bool) (f : HeaderFields) : BitVec 26 :=
  BitVec.ofBool valid ++ BitVec.ofBool f.ok ++ f.len ++ f.kind ++ BitVec.ofBool f.rel
    ++ BitVec.ofBool f.dip ++ f.ack ++ f.seq

/-- `HDR.SEQ`, the sequence number of a received header. -/
def hdrSeq (h : BitVec 26) : SeqNum := h.extractLsb' 0 3

/-- `HDR.ACK`, the acknowledgement number the host takes (R177). -/
def hdrAck (h : BitVec 26) : SeqNum := h.extractLsb' 3 3

/-- `HDR.DIP`. -/
def hdrDip (h : BitVec 26) : Bool := h.getLsbD 6

/-- `HDR.REL`. -/
def hdrRel (h : BitVec 26) : Bool := h.getLsbD 7

/-- `HDR.KIND`. -/
def hdrKind (h : BitVec 26) : Kind := h.extractLsb' 8 4

/-- `HDR.LEN`. -/
def hdrLen (h : BitVec 26) : BitVec 12 := h.extractLsb' 12 12

/-- `HDR.HCSOK`. -/
def hdrHcsOk (h : BitVec 26) : Bool := h.getLsbD 24

/-- `HDR.VALID`. -/
def hdrValid (h : BitVec 26) : Bool := h.getLsbD 25

/-! ## Packet types (R108) -/

/-- The seven packet types of doc00 §3, in its order. -/
inductive PacketType where
  | init | start | data | stopData | validateFirmware | activateAndReset | ping
deriving DecidableEq, Repr

/-- The packet types in the order of their codes. -/
def packetTypes : List PacketType :=
  [.init, .start, .data, .stopData, .validateFirmware, .activateAndReset, .ping]

/-- The code of a packet type (R108). -/
def PacketType.code : PacketType → BitVec 4
  | .init => 0
  | .start => 1
  | .data => 2
  | .stopData => 3
  | .validateFirmware => 4
  | .activateAndReset => 5
  | .ping => 6

/-- The code `Unknown` of R108, a result of `CLASSIFY` only. -/
def unknownCode : BitVec 4 := 15

end Sys2Proof.Machine
end

