-- ==== Sys2Proof/Machine/Operands.lean ====
section
/-!
DEFINITION. Operands and registers as the instructions see them: the little-endian marshalling of
00_scope.md rule R10, the register map of 20_memory.md rule R61 for reads and for writes, and the
opcode parameter of each packet type (30_encoding.md rule R108). The fields of a command word are taken
apart in Decode.lean; the byte-sequence operand is always the whole of `IBUF` (R92).
-/

namespace Sys2Proof.Machine

/-! ## Little-endian integers (R10) -/

/-- `le16(v)`: low byte first. -/
def le16 (v : BitVec 16) : Bytes := [v.extractLsb' 0 8, v.extractLsb' 8 8]

/-- `le32(v)`: low byte first. -/
def le32 (v : Word) : Bytes :=
  [v.extractLsb' 0 8, v.extractLsb' 8 8, v.extractLsb' 16 8, v.extractLsb' 24 8]

/-- `unle32([b0, b1, b2, b3])`. -/
def unle32 (b0 b1 b2 b3 : Byte) : Word := b3 ++ b2 ++ b1 ++ b0

/-! ## The register map (R61) -/

/-- What a read returns at every offset but `DOUT`'s, zero-extended to 32 bits: the register, or 0 at a
write-only or reserved offset (R61, R64, R228). At `DOUT` it is the pop of `Ports.lean`; 0 here. -/
def readReg (r : Reg) (s : State) : Word :=
  match r with
  | .cmd => 0
  | .status => statusWord s
  | .din => 0
  | .dout => 0
  | .crc => s.crc.setWidth 32
  | .seq => s.seq.setWidth 32
  | .hdr => s.hdr.setWidth 32
  | .dlen => s.dlen.setWidth 32
  | .icount => countWord s.ibuf.length
  | .ocount => countWord s.obuf.length
  | .ptype => s.ptype.setWidth 32
  | .reserved2C => 0
  | .mode => s.mode
  | .sdsize => s.sdsize
  | .blsize => s.blsize
  | .appsize => s.appsize

/-- What a write does at every offset but those of `CMD` and `DIN`: the five writable registers take the
value (`CRC` its low 16 bits, R65), any other offset ignores it (R61, R64, R229). -/
def writeReg (r : Reg) (v : Word) (s : State) : State :=
  match r with
  | .cmd => s
  | .status => s
  | .din => s
  | .dout => s
  | .crc => { s with crc := v.extractLsb' 0 16 }
  | .seq => s
  | .hdr => s
  | .dlen => s
  | .icount => s
  | .ocount => s
  | .ptype => s
  | .reserved2C => s
  | .mode => { s with mode := v }
  | .sdsize => { s with sdsize := v }
  | .blsize => { s with blsize := v }
  | .appsize => { s with appsize := v }

/-! ## Opcode parameters (R108) -/

/-- The opcode parameter of a packet type. -/
def opcodeOf (c : Params) : PacketType → Word
  | .init => c.opcInit
  | .start => c.opcStart
  | .data => c.opcData
  | .stopData => c.opcStopData
  | .validateFirmware => c.opcValidate
  | .activateAndReset => c.opcActivate
  | .ping => c.opcPing

end Sys2Proof.Machine
end

