-- ==== Sys2Proof/Machine/Ops.lean ====
section
/-!
DEFINITION. The operations the meanings share: fault entry and return (60_exceptions.md rules R295,
R297), the gate of the faulted condition (R296), and the two ends of the byte buffers (10_state.md
rules R26, R27).
-/

namespace Sys2Proof.Machine

/-- The outcome of a step of this machine. -/
abbrev Outcome := Host.Outcome State Fault Refusal

/-! ## Faults -/

/-- Fault entry, `raise F` (R295, R12): `ERR` takes the code, `IBUF` is emptied, nothing else changes. -/
def raise (f : Cause) (s : State) : State := { s with err := f.code, ibuf := [] }

/-- Return from the faulted condition (R297): `ERR <- 0`, nothing else. -/
def clearFault (s : State) : State := { s with err := 0 }

/-- The gate of R224 and R296: the effect `t` of a `CMD` or `DIN` write happens only while `ERR = 0`;
else the write is ignored. -/
def gated (s t : State) : State := if s.err = 0 then t else s

/-- All-or-nothing (R12, R224): a command that raises has no effect but fault entry. -/
def settle (s : State) : Except Cause State → State
  | .ok t => t
  | .error f => raise f s

/-- A command: gated, then its body's effect or its fault. -/
def command (s : State) (body : Except Cause State) : Outcome := .next (gated s (settle s body))

/-- The answer to an illegal word written to `CMD` (R93, R224). -/
def illegalCommand (s : State) : State := gated s (raise .illegalCommand s)

/-! ## Buffers -/

/-- `IBUF <- []`: the operand is consumed (R26). -/
def consume (s : State) : State := { s with ibuf := [] }

/-- `OBUF <- OBUF ++ y`. -/
def appendOut (y : Bytes) (s : State) : State := { s with obuf := s.obuf ++ y }

/-- Append a result, or `OutputOverflow` when it does not fit (R27). -/
def emit (y : Bytes) (s : State) : Except Cause State :=
  if s.obuf.length + y.length > csf.obufCap then .error .outputOverflow else .ok (appendOut y s)

/-- Append a result and consume the operand, the end of `ENCODE`, `DECODE`, `WRAP` and `UNWRAP`. -/
def emitConsume (y : Bytes) (s : State) : Except Cause State := (emit y s).map consume

/-- Return a word to the host (R62). -/
def answer (v : Word) (s : State) : State := { s with returned := s.returned ++ [v] }

end Sys2Proof.Machine
end

