-- ==== Sys2Proof/Machine/Control.lean ====
section
/-!
DEFINITION. The control commands (44_control_and_ports.md rules R220 to R223) and the host action
`Reset` (70_reset_and_hazards.md rule R330).
-/

namespace Sys2Proof.Machine

/-- `NOP` (R220): no state changes. -/
def execNop (s : State) : Outcome := command s (.ok s)

/-- `CLR_ERR` (R221): `ERR <- 0`, whatever `ERR` is. -/
def execClrErr (s : State) : Outcome := .next (clearFault s)

/-- `FLUSH fi, fo` (R222). -/
def execFlush (fi fo : Bool) (s : State) : Outcome :=
  command s (.ok { s with ibuf := if fi then [] else s.ibuf, obuf := if fo then [] else s.obuf })

/-- `SEQ_CLR` (R223). -/
def execSeqClr (s : State) : Outcome := command s (.ok { s with seq := 0 })

/-- `Reset` (R330): every piece of the engine's state takes its reset value, in any state. The host's
side, the accesses it has yet to make and the words it has been returned, is not the engine's and
stays (log entry 9). -/
def execReset (s : State) : Outcome :=
  .next { State.reset with pending := s.pending, returned := s.returned }

end Sys2Proof.Machine
end

