-- ==== Sys2Proof/Machine/Crc.lean ====
section
/-!
DEFINITION. The Checksum Engine (40_crc.md rules R132 to R138). `crc_step` (R131) stands in
Machine/Decided.lean.
-/

namespace Sys2Proof.Machine

/-- `crc_fold(x, s)` (R132): the bytes folded in, index 0 first. -/
def crcFold (c : Params) (x : Crc) (s : Bytes) : Crc := s.foldl c.crcStep x

/-- `crc16(s)` (R133): no final XOR, no reversal. -/
def crc16 (c : Params) (s : Bytes) : Crc := crcFold c c.crcInit s

/-- `CRC_INIT` (R134). -/
def execCrcInit (s : State) : Outcome := command s (.ok { s with crc := csf.crcInit })

/-- `CRC_BYTE byte` (R135). -/
def execCrcByte (byte : Byte) (s : State) : Outcome :=
  command s (.ok { s with crc := csf.crcStep s.crc byte })

/-- `CRC_BUF` (R136): continues from `CRC`. -/
def execCrcBuf (s : State) : Outcome :=
  command s (.ok (consume { s with crc := crcFold csf s.crc s.ibuf }))

/-- `CRC16` (R137): the old `CRC` never matters. -/
def execCrc16 (s : State) : Outcome :=
  command s (.ok (consume { s with crc := crc16 csf s.ibuf }))

/-- `CRC_PUT` (R138): the CRC low byte first; `IBUF` stays. -/
def execCrcPut (s : State) : Outcome := command s (emit (le16 s.crc) s)

end Sys2Proof.Machine
end

