-- ==== Sys2Proof/Machine/Stuffing.lean ====
section
/-!
DEFINITION. The Byte-Stuffing Codec (41_stuffing.md rules R150 to R157). The functions take the
configuration record, since their laws hold for every record that meets R7.
-/

namespace Sys2Proof.Machine

/-- The escape sequence of one byte, or the byte itself (R105, R150). -/
def stuffByte (c : Params) (b : Byte) : Bytes :=
  if b = c.boundary then [c.esc, c.escBoundary]
  else if b = c.esc then [c.esc, c.escEsc]
  else [b]

/-- `stuff(s)` (R150). -/
def stuff (c : Params) : Bytes → Bytes
  | [] => []
  | b :: t => stuffByte c b ++ stuff c t

/-- `unstuff(y)` (R151); `none` is the verdict `Bad`. -/
def unstuff (c : Params) : Bytes → Option Bytes
  | [] => some []
  | [b] => if b = c.boundary then none else if b = c.esc then none else some [b]
  | b :: e :: t =>
    if b = c.boundary then none
    else if b = c.esc then
      if e = c.escBoundary then (unstuff c t).map (c.boundary :: ·)
      else if e = c.escEsc then (unstuff c t).map (c.esc :: ·)
      else none
    else (unstuff c (e :: t)).map (b :: ·)

/-- `wrap(s)` (R153): one boundary byte at each end of the stuffed body. -/
def wrap (c : Params) (s : Bytes) : Bytes := [c.boundary] ++ stuff c s ++ [c.boundary]

/-- What follows the first boundary byte; none where there is no boundary byte. -/
def afterFirst (c : Params) : Bytes → Option Bytes
  | [] => none
  | b :: t => if b = c.boundary then some t else afterFirst c t

/-- What precedes the last boundary byte; none where there is no boundary byte. -/
def beforeLast (c : Params) : Bytes → Option Bytes
  | [] => none
  | b :: t =>
    match beforeLast c t with
    | some p => some (b :: p)
    | none => if b = c.boundary then some [] else none

/-- `span(r)` (R153): the bytes between the first and the last boundary byte; none with fewer than two. -/
def span (c : Params) (r : Bytes) : Option Bytes := (afterFirst c r).bind (beforeLast c)

/-- `ENCODE` (R154). -/
def execEncode (s : State) : Outcome := command s (emitConsume (stuff csf s.ibuf) s)

/-- `DECODE` (R155). -/
def execDecode (s : State) : Outcome :=
  command s (match unstuff csf s.ibuf with
    | none => .error .badStuffing
    | some x => emitConsume x s)

/-- `WRAP` (R156). -/
def execWrap (s : State) : Outcome := command s (emitConsume (wrap csf s.ibuf) s)

/-- `UNWRAP` (R157). -/
def execUnwrap (s : State) : Outcome :=
  command s (match span csf s.ibuf with
    | none => .error .noFrame
    | some p =>
      match unstuff csf p with
      | none => .error .badStuffing
      | some x => emitConsume x s)

end Sys2Proof.Machine
end

