-- ==== Sys2Proof/Machine/Framer.lean ====
section
/-!
DEFINITION. The Packet Framer (42_framer.md rules R170 to R178; the header of 30_encoding.md rules R100
to R104).
-/

namespace Sys2Proof.Machine

/-- `mkhdr(rel, dip, ack, seq, kind, n)` (R100, R101). -/
def mkhdr (rel dip : Bool) (ack seq : SeqNum) (kind : Kind) (n : BitVec 12) : Bytes :=
  let h0 : Byte := BitVec.ofBool rel ++ BitVec.ofBool dip ++ ack ++ seq
  let h1 : Byte := n.extractLsb' 0 4 ++ kind
  let h2 : Byte := n.extractLsb' 4 8
  [h0, h1, h2, headerChecksum h0 h1 h2]

/-- Header and payload of a frame: what the body checksum covers (R103). The ack field is 0 (R170). -/
def frameBody (seq : SeqNum) (dip rel : Bool) (kind : Kind) (p : Bytes) : Bytes :=
  mkhdr rel dip 0 seq kind (BitVec.ofNat 12 p.length) ++ p

/-- `frame(seq, dip, rel, kind, p)` (R170): the wire bytes and the CRC appended in them. For payloads of
at most `MAX_PAYLOAD` bytes (R173); the CRC is there whatever `dip` is (R171). -/
def frame (c : Params) (seq : SeqNum) (dip rel : Bool) (kind : Kind) (p : Bytes) : Bytes × Crc :=
  let body := frameBody seq dip rel kind p
  let x := crc16 c body
  (wrap c (body ++ le16 x), x)

/-- `do_frame(seq, dip, rel, kind)` (R172), the common body of `FRAME` and `FRAMES`. -/
def doFrame (seq : SeqNum) (dip rel : Bool) (kind : Kind) (s : State) : Except Cause State :=
  if s.ibuf.length > csf.maxPayload then .error .lengthOverflow
  else
    let f := frame csf seq dip rel kind s.ibuf
    (emitConsume f.1 s).map (fun t => { t with crc := f.2 })

/-- `FRAME rel, dip, kind, seq` (R174): `SEQ` is neither read nor written. -/
def execFrame (rel dip : Bool) (kind : Kind) (seq : SeqNum) (s : State) : Outcome :=
  command s (doFrame seq dip rel kind s)

/-- The Sequence Counter advanced by one, mod `2^SEQ_BITS` (R22, R175). -/
def nextSeq (c : Params) (q : SeqNum) : SeqNum := BitVec.ofNat 3 ((q.toNat + 1) % 2 ^ c.seqBits)

/-- `FRAMES rel, dip, kind` (R175): the counter is advanced first, its new value goes in the header, and
it is kept only if the frame was produced. -/
def execFrames (rel dip : Bool) (kind : Kind) (s : State) : Outcome :=
  let n := nextSeq csf s.seq
  command s ((doFrame n dip rel kind s).map (fun t => { t with seq := n }))

/-! ## Reading a received frame -/

/-- What `parse` returns (R176): the fault or none, and what the verdict carries. -/
structure ParseResult where
  dlen : Option Nat
  fields : Option HeaderFields
  fault : Option Cause
deriving DecidableEq, Repr

/-- The fields of the first four decoded bytes (R176). -/
def headerFields (d0 d1 d2 d3 : Byte) : HeaderFields where
  ok := checksumValid d0 d1 d2 d3
  len := d2 ++ d1.extractLsb' 4 4
  kind := d1.extractLsb' 0 4
  rel := d0.getLsbD 7
  dip := d0.getLsbD 6
  ack := d0.extractLsb' 3 3
  seq := d0.extractLsb' 0 3

/-- `parse` from the decoded span on (R176). It looks at the first four bytes only (R178). -/
def parseDecoded (d : Bytes) : ParseResult :=
  match d with
  | [] => ⟨some 0, none, some .shortResponse⟩
  | d0 :: d1 :: d2 :: d3 :: _ =>
    let f := headerFields d0 d1 d2 d3
    ⟨some d.length, some f, if f.ok then none else some .malformedHeader⟩
  | _ => ⟨some d.length, none, some .malformedHeader⟩

/-- `parse(r)` (R176). -/
def parse (c : Params) (r : Bytes) : ParseResult :=
  match span c r with
  | none => ⟨none, none, some .noFrame⟩
  | some p =>
    match unstuff c p with
    | none => ⟨none, none, some .badStuffing⟩
    | some d => parseDecoded d

/-- `HDR` after a `PARSE` (R177): 0, or the fields read, `VALID` only on success. -/
def parsedHdr (v : ParseResult) : BitVec 26 :=
  match v.fields with
  | none => 0
  | some f => hdrWord v.fault.isNone f

/-- The results `PARSE` writes, kept when it faults (R177). -/
def parseResults (v : ParseResult) (s : State) : State :=
  { s with hdr := parsedHdr v, dlen := BitVec.ofNat 14 (v.dlen.getD 0) }

/-- `PARSE` (R177): unlike the other commands it keeps its result registers when it raises. -/
def execParse (s : State) : Outcome :=
  let v := parse csf s.ibuf
  let t := parseResults v s
  .next (gated s (match v.fault with
    | some f => raise f t
    | none => consume t))

end Sys2Proof.Machine
end

