-- ==== Sys2Proof/Machine/Payload.lean ====
section
/-!
DEFINITION. Payload marshalling (43_payload.md rules R200 to R209; the layouts of 30_encoding.md rule
R107).
-/

namespace Sys2Proof.Machine

/-- `takes_body(t)` (R200). -/
def takesBody : PacketType → Bool
  | .init => true
  | .start => false
  | .data => true
  | .stopData => false
  | .validateFirmware => false
  | .activateAndReset => false
  | .ping => false

/-- `payload_of(t, x)` (R200, R107); the four operand registers are those of `s`. -/
def payloadOf (c : Params) (t : PacketType) (x : Bytes) (s : State) : Bytes :=
  match t with
  | .init => le32 c.opcInit ++ x ++ [0x00, 0x00]
  | .start => le32 c.opcStart ++ le32 s.mode ++ le32 s.sdsize ++ le32 s.blsize ++ le32 s.appsize
  | .data => le32 c.opcData ++ x
  | .stopData => le32 c.opcStopData
  | .validateFirmware => le32 c.opcValidate
  | .activateAndReset => le32 c.opcActivate
  | .ping => le32 c.opcPing

/-- `MKPL t` (R201): `IBUF` is replaced by the payload. -/
def marshal (t : PacketType) (s : State) : Except Cause State :=
  if takesBody t = false ∧ s.ibuf.length ≠ 0 then .error .badOperand
  else
    let y := payloadOf csf t s.ibuf s
    if y.length > csf.ibufCap then .error .inputOverflow else .ok { s with ibuf := y }

/-- `MKPL INIT` (R202). -/
def execMkplInit (s : State) : Outcome := command s (marshal .init s)

/-- `MKPL START` (R203). -/
def execMkplStart (s : State) : Outcome := command s (marshal .start s)

/-- `MKPL DATA` (R204). -/
def execMkplData (s : State) : Outcome := command s (marshal .data s)

/-- `MKPL STOPDATA` (R205). -/
def execMkplStopData (s : State) : Outcome := command s (marshal .stopData s)

/-- `MKPL VALIDATE` (R206). -/
def execMkplValidate (s : State) : Outcome := command s (marshal .validateFirmware s)

/-- `MKPL ACTIVATE` (R207). -/
def execMkplActivate (s : State) : Outcome := command s (marshal .activateAndReset s)

/-- `MKPL PING` (R208). -/
def execMkplPing (s : State) : Outcome := command s (marshal .ping s)

/-- The least type code whose opcode parameter is `v`, or `Unknown` (R209). -/
def codeOfOpcode (c : Params) (v : Word) : BitVec 4 :=
  match packetTypes.find? (fun t => opcodeOf c t == v) with
  | some t => t.code
  | none => unknownCode

/-- The packet type inferred from the first four bytes (R209). -/
def inferType (c : Params) : Bytes → BitVec 4
  | b0 :: b1 :: b2 :: b3 :: _ => codeOfOpcode c (unle32 b0 b1 b2 b3)
  | _ => unknownCode

/-- `CLASSIFY` (R209): `IBUF` is not consumed. -/
def execClassify (s : State) : Outcome := command s (.ok { s with ptype := inferType csf s.ibuf })

end Sys2Proof.Machine
end

