-- ==== Sys2Proof/Machine/Ports.lean ====
section
/-!
DEFINITION. The port accesses (44_control_and_ports.md rules R226 to R229).
-/

namespace Sys2Proof.Machine

/-- `PUSH b` (R226): ignored while faulted; `InputOverflow` when `IBUF` is full. -/
def execPush (byte : Byte) (s : State) : Outcome :=
  command s (if s.ibuf.length = csf.ibufCap then .error .inputOverflow
    else .ok { s with ibuf := s.ibuf ++ [byte] })

/-- What `POP` returns for a byte: the byte in `[7:0]`, the valid flag in `[8]` (R227). -/
def popWord (b : Byte) : Word := 0#23 ++ 1#1 ++ b

/-- `POP` (R227): the front byte of `OBUF`, removed; 0 and no change when there is none. Not gated. -/
def execPop (s : State) : Outcome :=
  match s.obuf with
  | [] => .next (answer 0 s)
  | b :: t => .next (answer (popWord b) { s with obuf := t })

/-- `RD reg` (R228): returns the register and changes nothing. Not gated. The read of `DOUT` is `POP`. -/
def execRd (reg : Reg) (s : State) : Outcome :=
  if reg.rdOk then .next (answer (readReg reg s) s) else .refused .accessOfAnotherInstruction

/-- `WR reg, v` (R229). Not gated. The writes of `CMD` and `DIN` are the commands and `PUSH`. -/
def execWr (reg : Reg) (v : Word) (s : State) : Outcome :=
  if reg.wrOk then .next (writeReg reg v s) else .refused .accessOfAnotherInstruction

end Sys2Proof.Machine
end

