-- ==== Sys2Proof/Machine/Dispatch.lean ====
section
/-! DEFINITION. The dispatch of an instruction to its meaning. -/

namespace Sys2Proof.Machine

def exec (i : Instr) (s : State) : Host.Outcome State Fault Refusal :=
  match i with
  | .nop => Sys2Proof.Machine.execNop s
  | .clrErr => Sys2Proof.Machine.execClrErr s
  | .flush fi fo => Sys2Proof.Machine.execFlush fi fo s
  | .seqClr => Sys2Proof.Machine.execSeqClr s
  | .crcInit => Sys2Proof.Machine.execCrcInit s
  | .crcByte byte => Sys2Proof.Machine.execCrcByte byte s
  | .crcBuf => Sys2Proof.Machine.execCrcBuf s
  | .crc16 => Sys2Proof.Machine.execCrc16 s
  | .crcPut => Sys2Proof.Machine.execCrcPut s
  | .encode => Sys2Proof.Machine.execEncode s
  | .decode => Sys2Proof.Machine.execDecode s
  | .wrap => Sys2Proof.Machine.execWrap s
  | .unwrap => Sys2Proof.Machine.execUnwrap s
  | .frame rel dip kind seq => Sys2Proof.Machine.execFrame rel dip kind seq s
  | .frames rel dip kind => Sys2Proof.Machine.execFrames rel dip kind s
  | .parse => Sys2Proof.Machine.execParse s
  | .mkplInit => Sys2Proof.Machine.execMkplInit s
  | .mkplStart => Sys2Proof.Machine.execMkplStart s
  | .mkplData => Sys2Proof.Machine.execMkplData s
  | .mkplStopData => Sys2Proof.Machine.execMkplStopData s
  | .mkplValidate => Sys2Proof.Machine.execMkplValidate s
  | .mkplActivate => Sys2Proof.Machine.execMkplActivate s
  | .mkplPing => Sys2Proof.Machine.execMkplPing s
  | .classify => Sys2Proof.Machine.execClassify s
  | .push byte => Sys2Proof.Machine.execPush byte s
  | .pop => Sys2Proof.Machine.execPop s
  | .rd reg => Sys2Proof.Machine.execRd reg s
  | .wr reg v => Sys2Proof.Machine.execWr reg v s
  | .reset => Sys2Proof.Machine.execReset s

end Sys2Proof.Machine
end

