-- ==== Sys2Proof/Machine/Serve.lean ====
section
/-!
DEFINITION. Serving the host's accesses (20_memory.md rules R62 to R64, R70, R72; 44_control_and_ports.md
rule R224): fetching the next one, and what each does.
-/

namespace Sys2Proof.Machine

/-- One host access, whole and at once (R72). An illegal command word is the engine's fault (R93), an
access with no meaning is refused (R63, R64). -/
def serve (a : Access) (s : State) : Outcome :=
  match decode a with
  | .ok i => exec i s
  | .error .illegalCommand => .next (illegalCommand s)
  | .error .notAlignedWord => .refused .notAlignedWord
  | .error .outsideWindow => .refused .outsideWindow

/-- The oldest access not yet served, and the state with it taken from the queue (R70). -/
def fetch (s : State) : Option (Access × State) :=
  match s.pending with
  | [] => none
  | a :: rest => some (a, { s with pending := rest })

/-- One step: the oldest access is served. With none the engine stays as it is, for it does nothing by
itself (R35, R311; log entry 2). -/
def stepAccess (s : State) : Outcome :=
  match fetch s with
  | none => .next s
  | some (a, t) => serve a t

/-- An access put before those that are queued, so that the next step serves it. -/
def issueFirst (a : Access) (s : State) : State := { s with pending := a :: s.pending }

/-- A host program: its accesses served in the order issued (R70), up to the first the model refuses. -/
def serveAll : List Access → State → Outcome
  | [], s => .next s
  | a :: rest, s =>
    match serve a s with
    | .next t => serveAll rest t
    | .fault r => .fault r
    | .refused r => .refused r

end Sys2Proof.Machine
end

