-- ==== Sys2Proof/Machine/Step.lean ====
section
/-! DEFINITION. The step of the machine, and how one instruction is placed where the next step takes it. -/

namespace Sys2Proof.Machine

/-- One step of the machine. -/
def step (s : State) : Host.Outcome State Fault Refusal := stepAccess s

/-- The state with the access of the opcode table's bits issued first (log entries 1 and 7). -/
def State.withFetchWord (s : State) (nbits w : Nat) : State := issueFirst (tableAccess nbits w) s

end Sys2Proof.Machine
end

