-- ==== Sys2Proof/Machine/HostProgram.lean ====
section
/-!
DEFINITION. Host programs: the pseudo-instructions of 30_encoding.md rule R116 and the assembler syntax
of rule R115, one action a line.
-/

namespace Sys2Proof.Machine

/-! ## Pseudo-instructions (R116) -/

/-- `PUSHS b0 b1 ... bk`: the pushes in that order. -/
def pushs (bs : Bytes) : List Access := bs.map (fun b => encode (.push b))

/-- `LOADSTART m, s, b, a`. -/
def loadStart (m sd bl app : Word) : List Access :=
  [encode (.wr .mode m), encode (.wr .sdsize sd), encode (.wr .blsize bl), encode (.wr .appsize app)]

/-- `POPALL` issued in state `s`: `POP` until one returns with its valid bit 0, that last one included,
so one more than there are bytes in `OBUF`. -/
def popAll (s : State) : List Access := List.replicate (s.obuf.length + 1) (encode .pop)

/-- The bytes a `POPALL` yields, from the words its reads returned: those whose valid bit is 1. -/
def yielded (ws : List Word) : Bytes :=
  (ws.filter (fun w => w.getLsbD 8)).map (fun w => w.extractLsb' 0 8)

/-- `FLUSH NONE`: `FLUSH` with `ARG = 0`. -/
def flushNone : Access := encode (.flush false false)

/-! ## Actions -/

/-- An action of R115 or R116. An `RD` or `WR` line is the access it writes out, whatever the register and
the value are: at `CMD` the word need be no legal command (R93). -/
inductive Action where
  | one (i : Instr)
  | access (a : Access)
  | pushs (bs : Bytes)
  | popAll
  | loadStart (m sd bl app : Word)
deriving DecidableEq, Repr

/-- The accesses of an action issued in state `s`. -/
def Action.expand (a : Action) (s : State) : List Access :=
  match a with
  | .one i => [encode i]
  | .access x => [x]
  | .pushs bs => Machine.pushs bs
  | .popAll => Machine.popAll s
  | .loadStart m sd bl app => Machine.loadStart m sd bl app

/-- A program of actions, each expanded in the state the ones before it leave. -/
def runActions : List Action → State → Outcome
  | [], s => .next s
  | a :: rest, s =>
    match serveAll (a.expand s) s with
    | .next t => runActions rest t
    | .fault r => .fault r
    | .refused r => .refused r

/-! ## Assembler syntax (R115)

Blanks separate tokens, a comma is a token, a semicolon starts a comment (DESIGN CHOICE, log entry 11). -/

/-- A token of a line. -/
abbrev Token := List Char

/-- The tokens of a line's characters; `cur` is the token being read, reversed. -/
def lexChars : List Char → Token → List Token
  | [], cur => if cur = [] then [] else [cur.reverse]
  | ch :: rest, cur =>
    let done := if cur = [] then [] else [cur.reverse]
    if ch = ';' then done
    else if ch = ' ' ∨ ch = '\t' then done ++ lexChars rest []
    else if ch = ',' then done ++ [[',']] ++ lexChars rest []
    else lexChars rest (ch :: cur)

/-- The value of a hexadecimal digit. -/
def hexDigit (ch : Char) : Option Nat :=
  let n := ch.toNat
  if 48 ≤ n ∧ n ≤ 57 then some (n - 48)
  else if 65 ≤ n ∧ n ≤ 70 then some (n - 55)
  else if 97 ≤ n ∧ n ≤ 102 then some (n - 87)
  else none

/-- The value of a decimal digit. -/
def decDigit (ch : Char) : Option Nat :=
  let n := ch.toNat
  if 48 ≤ n ∧ n ≤ 57 then some (n - 48) else none

/-- Digits in a base, most significant first. -/
def digits (base : Nat) (digit : Char → Option Nat) : List Char → Nat → Option Nat
  | [], acc => some acc
  | ch :: rest, acc => (digit ch).bind (fun d => digits base digit rest (acc * base + d))

/-- A number below `bound` in decimal digits, of any length: leading zeros are allowed. It is the decimal
form of `word`; that `bit`, `n3` and `n4`, whose notation R115 does not define, have this form and no
hexadecimal one is a DESIGN CHOICE (log entry 11). -/
def decNumber (bound : Nat) (t : Token) : Option Nat :=
  if t = [] then none
  else (digits 10 decDigit t 0).bind (fun n => if n < bound then some n else none)

/-- Hexadecimal digits after a `0x` prefix. -/
def afterPrefix : Token → Option Token
  | '0' :: 'x' :: t => some t
  | _ => none

/-- `byte`: "two hex digits with 0x prefix". -/
def asmByte (t : Token) : Option Byte :=
  (afterPrefix t).bind (fun h =>
    if h.length = 2 then (digits 16 hexDigit h 0).map (BitVec.ofNat 8) else none)

/-- A byte of a `PUSHS` list, where the prefix may be dropped, as the spec's own listings drop it. -/
def listByte (t : Token) : Option Byte :=
  match asmByte t with
  | some b => some b
  | none => if t.length = 2 then (digits 16 hexDigit t 0).map (BitVec.ofNat 8) else none

/-- `word`: "up to eight hex digits with 0x prefix, or decimal". -/
def asmWord (t : Token) : Option Word :=
  match afterPrefix t with
  | some h =>
    if h ≠ [] ∧ h.length ≤ 8 then (digits 16 hexDigit h 0).map (BitVec.ofNat 32) else none
  | none => (decNumber (2 ^ 32) t).map (BitVec.ofNat 32)

/-- The value of an operand `name=n`, below `bound`: 2 for `bit`, 8 for `n3`, 16 for `n4` (R115), in decimal
digits (DESIGN CHOICE, log entry 11). -/
def asmField (name : String) (bound : Nat) (t : Token) : Option Nat :=
  let key := name.toList ++ ['=']
  if t.take key.length = key then decNumber bound (t.drop key.length) else none

/-- A one-bit operand. -/
def asmBit (name : String) (t : Token) : Option Bool := (asmField name 2 t).map (fun n => n == 1)

/-- The mnemonics that take no operand. -/
def plainActions : List (String × Action) :=
  [ ("NOP", .one .nop), ("CLR_ERR", .one .clrErr), ("SEQ_CLR", .one .seqClr),
    ("CRC_INIT", .one .crcInit), ("CRC_BUF", .one .crcBuf), ("CRC16", .one .crc16),
    ("CRC_PUT", .one .crcPut), ("ENCODE", .one .encode), ("DECODE", .one .decode),
    ("WRAP", .one .wrap), ("UNWRAP", .one .unwrap), ("PARSE", .one .parse),
    ("CLASSIFY", .one .classify), ("POP", .one .pop), ("RESET", .one .reset),
    ("POPALL", .popAll) ]

/-- The second words of `MKPL`. -/
def mkplNames : List (String × Instr) :=
  [ ("INIT", .mkplInit), ("START", .mkplStart), ("DATA", .mkplData), ("STOPDATA", .mkplStopData),
    ("VALIDATE", .mkplValidate), ("ACTIVATE", .mkplActivate), ("PING", .mkplPing) ]

/-- The second words of `FLUSH`: `ARG = fi | fo<<1`. -/
def flushNames : List (String × Instr) :=
  [ ("I", .flush true false), ("O", .flush false true), ("IO", .flush true true),
    ("NONE", .flush false false) ]

/-- The register names of R61. -/
def regNames : List (String × Reg) :=
  [ ("CMD", .cmd), ("STATUS", .status), ("DIN", .din), ("DOUT", .dout), ("CRC", .crc), ("SEQ", .seq),
    ("HDR", .hdr), ("DLEN", .dlen), ("ICOUNT", .icount), ("OCOUNT", .ocount), ("PTYPE", .ptype),
    ("MODE", .mode), ("SDSIZE", .sdsize), ("BLSIZE", .blsize), ("APPSIZE", .appsize) ]

/-- The entry of a table under a token. -/
def named {α : Type} (table : List (String × α)) (t : Token) : Option α :=
  (table.find? (fun e => e.1.toList == t)).map (fun e => e.2)

/-- The action of a line's tokens (R115, R116). -/
def asmTokens : List Token → Option Action
  | [op] => named plainActions op
  | [op, x] =>
    if op = "FLUSH".toList then (named flushNames x).map .one
    else if op = "MKPL".toList then (named mkplNames x).map .one
    else if op = "CRC_BYTE".toList then (asmByte x).map (fun b => .one (.crcByte b))
    else if op = "PUSH".toList then (asmByte x).map (fun b => .one (.push b))
    else if op = "RD".toList then (named regNames x).map (fun r => .access (wordRead r))
    else if op = "PUSHS".toList then (listByte x).map (fun b => .pushs [b])
    else none
  | op :: rest =>
    if op = "PUSHS".toList then (rest.mapM listByte).map .pushs
    else match rest with
      | [r, [','], v] =>
        if op = "WR".toList then
          (named regNames r).bind (fun r => (asmWord v).map (fun v => .access (wordWrite r v)))
        else none
      | [r, [','], d, [','], k] =>
        if op = "FRAMES".toList then
          (asmBit "rel" r).bind (fun rel => (asmBit "dip" d).bind (fun dip =>
            (asmField "kind" 16 k).map (fun kind => .one (.frames rel dip (BitVec.ofNat 4 kind)))))
        else none
      | [r, [','], d, [','], k, [','], q] =>
        if op = "FRAME".toList then
          (asmBit "rel" r).bind (fun rel => (asmBit "dip" d).bind (fun dip =>
            (asmField "kind" 16 k).bind (fun kind => (asmField "seq" 8 q).map (fun seq =>
              .one (.frame rel dip (BitVec.ofNat 4 kind) (BitVec.ofNat 3 seq))))))
        else if op = "LOADSTART".toList then
          (asmWord r).bind (fun m => (asmWord d).bind (fun sd => (asmWord k).bind (fun bl =>
            (asmWord q).map (fun app => .loadStart m sd bl app))))
        else none
      | _ => none
  | [] => none

/-- The action of a line. -/
def asmLine (line : String) : Option Action := asmTokens (lexChars line.toList [])

/-- A program, one action a line; a line that is no action refuses it. -/
def assemble (lines : List String) : Option (List Action) := lines.mapM asmLine

end Sys2Proof.Machine
end

