-- ==== Sys2Proof/Safety.lean ====
section
/-!
DEFINITION. What claims call a good state and a run: the faulted condition of 60_exceptions.md rule
R296, the invariants of 10_state.md rule R37, and the states a host program reaches from reset.
-/

namespace Sys2Proof.Machine

/-- The faulted condition (R296). -/
abbrev State.faulted (s : State) : Prop := s.err ≠ 0

/-- The invariants of R37. -/
structure State.Inv (s : State) : Prop where
  ibuf_fits : s.ibuf.length ≤ csf.ibufCap
  obuf_fits : s.obuf.length ≤ csf.obufCap
  faulted_empties : s.err ≠ 0 → s.ibuf = []
  valid_means_header : hdrValid s.hdr = true → hdrHcsOk s.hdr = true ∧ 4 ≤ s.dlen.toNat
  err_is_code : s.err.toNat ≤ 9
  ptype_is_code : s.ptype.toNat ≤ 6 ∨ s.ptype = unknownCode

/-- The state after reset with a host program yet to be served: how a program comes to run from reset
(log entry 1). -/
def afterReset (program : List Access) : State := { State.reset with pending := program }

/-- A state some host program reaches from reset. -/
inductive Reachable : State → Prop where
  | start (program : List Access) : Reachable (afterReset program)
  | next (s t : State) (hs : Reachable s) (ht : step s = .next t) : Reachable t

end Sys2Proof.Machine
end

