-- ==== Sys2Proof/Certificates/Slice0/Obligations.lean ====
section
/-!
DEFINITION. The statements for the provers. Each is a proposition about the machine; none is proved
here. `Sys2Proof.Claims` holds the few words they share, written from the spec's text and not from the
model's operations.
-/

open Sys2Proof Sys2Proof.Machine

namespace Sys2Proof.Claims

/-- A word written to `CMD` (R90). -/
def cmdWrite (w : Word) : Access := .regWrite 0x00 4 w

/-- The field `OP` of a command word (R90). -/
def opField (w : Word) : BitVec 8 := w.extractLsb' 16 8

/-- The state a fault with this code leaves (R295), with nothing else changed. -/
def latch (code : BitVec 4) (s : State) : State := { s with err := code, ibuf := [] }

/-- `v` selects no command, and writing it while no fault is latched raises `IllegalCommand`, code 1
(R93). -/
def RaisesIllegal (v : Word) : Prop :=
  decode (cmdWrite v) = .error .illegalCommand ∧
    ∀ s : State, s.err = 0 → serve (cmdWrite v) s = .next (latch 1 s)

/-- `w` is the one word of its `OP` that is not illegal, and it selects `i`: what R93 says of a command
of format `Z`. -/
def OnlyWord (w : Word) (i : Instr) : Prop :=
  decode (cmdWrite w) = .ok i ∧ ∀ v : Word, opField v = opField w → v ≠ w → RaisesIllegal v

/-- The bytes `OBUF` takes, or the fault that it has no room (R27): code 3. -/
def deliver (y : Bytes) (s : State) : State :=
  if s.obuf.length + y.length > 8204 then latch 3 s
  else { s with obuf := s.obuf ++ y, ibuf := [] }

/-- The header checksum as R101 writes it. -/
def checksum (h0 h1 h2 : Byte) : Byte := BitVec.ofNat 8 ((256 - (h0.toNat + h1.toNat + h2.toNat) % 256) % 256)

/-- The four header bytes as R100 writes them, in numbers; the ack field is 0 (R170). -/
def header (rel dip : Bool) (kind : Kind) (seq : SeqNum) (n : Nat) : Bytes :=
  let h0 : Byte := BitVec.ofNat 8 (rel.toNat * 128 + dip.toNat * 64 + seq.toNat)
  let h1 : Byte := BitVec.ofNat 8 (n % 16 * 16 + kind.toNat)
  let h2 : Byte := BitVec.ofNat 8 (n / 16 % 256)
  [h0, h1, h2, checksum h0 h1 h2]

/-- Header and payload (R103). -/
def body (rel dip : Bool) (kind : Kind) (seq : SeqNum) (p : Bytes) : Bytes :=
  header rel dip kind seq p.length ++ p

/-- The CRC a frame carries (R103). -/
def bodyCrc (rel dip : Bool) (kind : Kind) (seq : SeqNum) (p : Bytes) : Crc :=
  crc16 csf (body rel dip kind seq p)

/-- The wire bytes of a frame as R104 writes them: low byte of the CRC first. -/
def wire (rel dip : Bool) (kind : Kind) (seq : SeqNum) (p : Bytes) : Bytes :=
  let x := bodyCrc rel dip kind seq p
  [0xC0] ++ stuff csf (body rel dip kind seq p ++ [x.extractLsb' 0 8, x.extractLsb' 8 8]) ++ [0xC0]

/-- What `FRAME` and `FRAMES` do with a sequence number (R172). -/
def framed (rel dip : Bool) (kind : Kind) (seq : SeqNum) (s : State) : State :=
  if s.ibuf.length > 4095 then latch 4 s
  else if s.obuf.length + (wire rel dip kind seq s.ibuf).length > 8204 then latch 3 s
  else { s with obuf := s.obuf ++ wire rel dip kind seq s.ibuf, ibuf := [],
                crc := bodyCrc rel dip kind seq s.ibuf }

/-- What `MKPL` does for a type that takes no body (R201): the payload `y`, or `BadOperand`. -/
def bodyless (y : Bytes) (s : State) : State :=
  if s.ibuf = [] then { s with ibuf := y } else latch 9 s

/-- The four bytes of a 32-bit integer, low byte first (R10). -/
def bytes32 (v : Word) : Bytes :=
  [v.extractLsb' 0 8, v.extractLsb' 8 8, v.extractLsb' 16 8, v.extractLsb' 24 8]

/-- The reserved bits of `ARG` for each of the 18 values of `OP` (R91); none for any other `OP`. -/
def reservedArg (op : BitVec 8) : Option (BitVec 16) :=
  if op ∈ [0x00#8, 0x01, 0x03, 0x10, 0x12, 0x13, 0x14, 0x20, 0x21, 0x22, 0x23, 0x32, 0x41] then some 0xFFFF
  else if op = 0x11 then some 0xFF00
  else if op = 0x02 then some 0xFFFC
  else if op = 0x30 then some 0xF038
  else if op = 0x31 then some 0xF03F
  else if op = 0x40 then some 0xFFF8
  else none

/-- The illegal words of R93. -/
def Illegal (w : Word) : Prop :=
  w.extractLsb' 24 8 ≠ 0 ∨ reservedArg (opField w) = none ∨
    (∃ m, reservedArg (opField w) = some m ∧ w.extractLsb' 0 16 &&& m ≠ 0) ∨
    (opField w = 0x40 ∧ w.extractLsb' 0 3 = 7)

/-- What `RD` returns at each offset but `DOUT`'s, as the table of R61 has it. -/
def readValue (r : Reg) (s : State) : Nat :=
  match r with
  | .cmd | .din | .dout | .reserved2C => 0
  | .status => s.err.toNat + (if s.ibuf = [] then 16 else 0) + (if s.ibuf.length = 8204 then 32 else 0)
      + (if s.obuf = [] then 64 else 0) + (if s.obuf.length = 8204 then 128 else 0)
  | .crc => s.crc.toNat
  | .seq => s.seq.toNat
  | .hdr => s.hdr.toNat
  | .dlen => s.dlen.toNat
  | .icount => s.ibuf.length
  | .ocount => s.obuf.length
  | .ptype => s.ptype.toNat
  | .mode => s.mode.toNat
  | .sdsize => s.sdsize.toNat
  | .blsize => s.blsize.toNat
  | .appsize => s.appsize.toNat

/-- The operations that write `CRC` (R21, R230), and `RESET`. -/
def writesCrc : Instr → Bool
  | .crcInit | .crcByte _ | .crcBuf | .crc16 | .frame _ _ _ _ | .frames _ _ _ | .reset => true
  | .wr r _ => r == .crc
  | _ => false

/-- The operations that write `SEQ` (R22), and `RESET`. -/
def writesSeq : Instr → Bool
  | .frames _ _ _ | .seqClr | .reset => true
  | _ => false

/-- The operations that write `OBUF` (R27, R230), and `RESET`. -/
def writesObuf : Instr → Bool
  | .crcPut | .encode | .decode | .wrap | .unwrap | .frame _ _ _ _ | .frames _ _ _ | .pop | .reset => true
  | .flush _ fo => fo
  | _ => false

/-- The operations that write the four operand registers (R23), and `RESET`. -/
def writesOperands : Instr → Bool
  | .wr r _ => r == .mode || r == .sdsize || r == .blsize || r == .appsize
  | .reset => true
  | _ => false

/-- The accesses that return a word to the host (R62). -/
def returnsWord : Instr → Bool
  | .pop | .rd _ => true
  | _ => false

/-- The reset values of the twelve pieces of state (R38). -/
def AtReset (s : State) : Prop :=
  s.crc = 0xFFFF ∧ s.seq = 0 ∧ s.err = 0 ∧ s.ibuf = [] ∧ s.obuf = [] ∧ s.hdr = 0 ∧ s.dlen = 0 ∧ s.ptype = 15 ∧
    s.mode = 0 ∧ s.sdsize = 0 ∧ s.blsize = 0 ∧ s.appsize = 0

/-- The opcode parameters are pairwise distinct, as R7 advises. -/
def DistinctOpcodes (c : Params) : Prop := ∀ t u : PacketType, opcodeOf c t = opcodeOf c u → t = u

end Sys2Proof.Claims

open Sys2Proof.Claims

/-! ## Step, decoding and encoding -/

/-- The step serves the oldest pending access (R70, R72), and that is `exec` of the instruction the
access decodes to; taking the access from the queue is all the step adds. The queue, and that the state
stays when nothing is pending, are the model's choice (log entries 1 and 2). -/
def Obligations.StepRunsTheDecodedInstruction : Prop :=
  (∀ (s : State) (a : Access) (rest : List Access),
    s.pending = a :: rest → step s = serve a { s with pending := rest }) ∧
  (∀ (s : State) (a : Access) (rest : List Access) (i : Instr),
    s.pending = a :: rest → decode a = .ok i → step s = exec i { s with pending := rest }) ∧
  ∀ s : State, s.pending = [] → step s = .next s

/-- R63, R64 (treatments U14, U15): the accesses the model gives no step (log entry 6). -/
def Obligations.OtherAccessesAreRefused : Prop :=
  ∀ (off size : Nat) (v : Word) (s : State),
    ((size ≠ 4 ∨ off % 4 ≠ 0) →
      serve (.regWrite off size v) s = .refused .notAlignedWord ∧
      serve (.regRead off size) s = .refused .notAlignedWord) ∧
    (size = 4 → off % 4 = 0 → 0x40 ≤ off →
      serve (.regWrite off size v) s = .refused .outsideWindow ∧
      serve (.regRead off size) s = .refused .outsideWindow) ∧
    (size = 4 → off % 4 = 0 → off < 0x40 →
      (∃ t, serve (.regWrite off size v) s = .next t) ∧ ∃ t, serve (.regRead off size) s = .next t)

/-- R93: which words are illegal, and what writing one does. -/
def Obligations.IllegalWordsAreTheListedOnesAndFault : Prop :=
  ∀ w : Word,
    (Illegal w ↔ decode (cmdWrite w) = .error .illegalCommand) ∧
    (∀ s : State, s.err = 0 → Illegal w → serve (cmdWrite w) s = .next (latch 1 s)) ∧
    ∀ s : State, s.err ≠ 0 → w ≠ 0x00010000 → serve (cmdWrite w) s = .next s

/-- Encoding and decoding agree for every well-formed instruction and every operand (R62, R90 to R94). -/
def Obligations.DecodeOfEncodeIsTheInstruction : Prop :=
  ∀ i : Instr, i.wellFormed = true → decode (encode i) = .ok i

/-- A legal command word is the word of the command it selects (R90, R91, R94): no two words select one
command, and no bit of a word is dropped. -/
def Obligations.CommandWordOfDecodedWordIsTheWord : Prop :=
  ∀ (w : Word) (i : Instr), decodeCommand w = some i → commandWord i = some w

/-- The examples of R115 and words of R94, written out by hand. -/
def Obligations.WrittenWordsDecode : Prop :=
  decode (cmdWrite 0x00300EC1) = .ok (.frame true true 14 1) ∧
  decode (cmdWrite 0x00310EC0) = .ok (.frames true true 14) ∧
  decode (cmdWrite 0x00110031) = .ok (.crcByte 0x31) ∧
  decode (cmdWrite 0x00020003) = .ok (.flush true true) ∧
  decode (cmdWrite 0x00020001) = .ok (.flush true false) ∧
  decode (cmdWrite 0x00400002) = .ok .mkplData ∧
  decode (.regWrite 0x08 4 0x1C0) = .ok (.push 0xC0) ∧
  decode (.regRead 0x0C 4) = .ok .pop

/-- A term that is not well formed names the access of another instruction and is refused (the model's
choice, log entry 8). -/
def Obligations.IllFormedTermsAreRefused : Prop :=
  ∀ (i : Instr) (s : State), i.wellFormed = false → exec i s = .refused .accessOfAnotherInstruction

/-- No well-formed instruction stops the machine, in any state (R290, R345). -/
def Obligations.WellFormedInstructionsAlwaysComplete : Prop :=
  ∀ (i : Instr) (s : State), i.wellFormed = true → ∃ t, exec i s = .next t

/-- Running the machine as many steps as there are pending accesses serves them in the order issued
(R70, R72). The queue of pending accesses is the model's choice (log entry 1). -/
def Obligations.RunServesPendingAccessesInOrder : Prop :=
  ∀ (as : List Access) (s : State),
    Host.Core.run Sys2Proof.core as.length { s with pending := as } = serveAll as { s with pending := [] }

/-! ## The checksum engine -/

/-- R131 and R139: the two forms of `crc_step` agree on all inputs. -/
def Obligations.CrcStepFormsAgree : Prop := ∀ (c : Crc) (b : Byte), crcStepNoLoop c b = crcStep c b

/-- R134, `CRC_INIT`. -/
def Obligations.CrcInitLoadsInitialValue : Prop :=
  OnlyWord 0x00100000 .crcInit ∧
  ∀ s : State, s.err = 0 → exec .crcInit s = .next { s with crc := 0xFFFF }

/-- R135, `CRC_BYTE byte`. -/
def Obligations.CrcByteFoldsOneByte : Prop :=
  (∀ b : Byte, decode (cmdWrite (0x001100#24 ++ b)) = .ok (.crcByte b)) ∧
  (∀ v : Word, opField v = 0x11 → (v.extractLsb' 8 8 ≠ 0 ∨ v.extractLsb' 24 8 ≠ 0) →
    RaisesIllegal v) ∧
  ∀ (b : Byte) (s : State), s.err = 0 → exec (.crcByte b) s = .next { s with crc := crcStep s.crc b }

/-- R136, `CRC_BUF`, and the equations of the fold it computes (R132): nothing folded leaves the value, a
byte is folded by `crc_step` before those after it, and a sequence may be folded in pieces. -/
def Obligations.CrcBufFoldsInput : Prop :=
  OnlyWord 0x00120000 .crcBuf ∧
  (∀ x : Crc, crcFold csf x [] = x) ∧
  (∀ (x : Crc) (b : Byte) (t : Bytes), crcFold csf x ([b] ++ t) = crcFold csf (crcStep x b) t) ∧
  (∀ (x : Crc) (s t : Bytes), crcFold csf x (s ++ t) = crcFold csf (crcFold csf x s) t) ∧
  ∀ s : State, s.err = 0 →
    exec .crcBuf s = .next { s with crc := crcFold csf s.crc s.ibuf, ibuf := [] }

/-- R137, `CRC16`, and the function it computes (R133): the fold from `0xFFFF` as it stands, with the two
values R133 gives. -/
def Obligations.Crc16ReplacesCrc : Prop :=
  OnlyWord 0x00130000 .crc16 ∧
  (∀ s : Bytes, crc16 csf s = crcFold csf 0xFFFF s) ∧
  crc16 csf [] = 0xFFFF ∧
  crc16 csf [0x31, 0x32, 0x33, 0x34, 0x35, 0x36, 0x37, 0x38, 0x39] = 0x29B1 ∧
  ∀ s : State, s.err = 0 →
    exec .crc16 s = .next { s with crc := crcFold csf 0xFFFF s.ibuf, ibuf := [] }

/-- R138, `CRC_PUT`. -/
def Obligations.CrcPutAppendsLowByteFirst : Prop :=
  OnlyWord 0x00140000 .crcPut ∧
  ∀ s : State, s.err = 0 → exec .crcPut s =
    .next (if s.obuf.length + 2 > 8204 then latch 3 s
      else { s with obuf := s.obuf ++ [s.crc.extractLsb' 0 8, s.crc.extractLsb' 8 8] })

/-- A CRC streamed in two pieces is the one-shot CRC, and a byte pushed and folded by `CRC_BUF` leaves the
CRC that `CRC_BYTE` of it leaves, one `crc_step` on (R132, R134 to R137). -/
def Obligations.StreamedCrcEqualsOneShot : Prop :=
  (∀ (s : State) (b : Byte), s.err = 0 → s.ibuf = [] →
    serveAll (pushs [b] ++ [encode .crcBuf]) s = .next { s with crc := crcStep s.crc b } ∧
    serveAll [encode (.crcByte b)] s = .next { s with crc := crcStep s.crc b }) ∧
  ∀ (s : State) (x y : Bytes), s.err = 0 → s.ibuf = [] → x.length + y.length ≤ 8204 →
    serveAll (encode .crcInit :: pushs x ++ [encode .crcBuf] ++ pushs y ++ [encode .crcBuf]) s =
      .next { s with crc := crcFold csf 0xFFFF (x ++ y) } ∧
    serveAll (pushs (x ++ y) ++ [encode .crc16]) s = .next { s with crc := crcFold csf 0xFFFF (x ++ y) }

/-! ## The byte-stuffing codec -/

/-- R150: the equations of `stuff` and the length of its result. -/
def Obligations.StuffEscapesAndGrows : Prop :=
  ∀ (c : Params) (b : Byte) (s : Bytes),
    stuff c [] = [] ∧
    stuff c ([b] ++ s) = (if b = c.boundary then [c.esc, c.escBoundary]
      else if b = c.esc then [c.esc, c.escEsc] else [b]) ++ stuff c s ∧
    s.length ≤ (stuff c s).length ∧ (stuff c s).length ≤ 2 * s.length ∧
    (stuff c s).length = s.length + s.countP (fun x => x == c.boundary || x == c.esc)

/-- R152: the laws of the codec, for every configuration that meets R7. The cut of `s ++ t` falls
between an `ESC` and the byte after it when `s` is an accepted sequence and an `ESC`. -/
def Obligations.StuffingRoundTripLaws : Prop :=
  ∀ c : Params, c.Legal →
    (∀ x : Bytes, unstuff c (stuff c x) = some x) ∧
    (∀ x : Bytes, c.boundary ∉ stuff c x) ∧
    (∀ x y : Bytes, unstuff c y = some x → stuff c x = y) ∧
    (∀ s t : Bytes, stuff c (s ++ t) = stuff c s ++ stuff c t) ∧
    (∀ s t : Bytes, (¬ ∃ u, s = u ++ [c.esc] ∧ unstuff c u ≠ none) →
      unstuff c (s ++ t) = (unstuff c s).bind (fun x => (unstuff c t).map (x ++ ·))) ∧
    (∀ u : Bytes, unstuff c u ≠ none → unstuff c (u ++ [c.esc]) = none) ∧
    ∃ u t x : Bytes, unstuff c u ≠ none ∧ unstuff c ((u ++ [c.esc]) ++ t) = some x

/-- R153: `wrap`, `span` by first and last boundary byte, and what a third boundary byte does. -/
def Obligations.SpanLiesBetweenFirstAndLastBoundary : Prop :=
  ∀ c : Params,
    (∀ s : Bytes, wrap c s = [c.boundary] ++ stuff c s ++ [c.boundary]) ∧
    (∀ r p : Bytes, span c r = some p ↔
      ∃ a z, r = a ++ [c.boundary] ++ p ++ [c.boundary] ++ z ∧ c.boundary ∉ a ∧ c.boundary ∉ z) ∧
    (∀ r : Bytes, span c r = none ↔ r.count c.boundary < 2) ∧
    (c.Legal → ∀ s : Bytes, (span c (wrap c s)).bind (unstuff c) = some s) ∧
    (c.Legal → ∀ r p : Bytes, span c r = some p → 3 ≤ r.count c.boundary → unstuff c p = none)

/-- R154, `ENCODE`. -/
def Obligations.EncodeStuffsInput : Prop :=
  OnlyWord 0x00200000 .encode ∧
  ∀ s : State, s.err = 0 → exec .encode s = .next (deliver (stuff csf s.ibuf) s)

/-- R155, `DECODE`. -/
def Obligations.DecodeUnstuffsInput : Prop :=
  OnlyWord 0x00210000 .decode ∧
  ∀ s : State, s.err = 0 →
    (unstuff csf s.ibuf = none → exec .decode s = .next (latch 5 s)) ∧
    ∀ x, unstuff csf s.ibuf = some x → exec .decode s = .next (deliver x s)

/-- R156, `WRAP`. -/
def Obligations.WrapDelimitsInput : Prop :=
  OnlyWord 0x00220000 .wrap ∧
  ∀ s : State, s.err = 0 →
    exec .wrap s = .next (deliver ([0xC0] ++ stuff csf s.ibuf ++ [0xC0]) s)

/-- R157, `UNWRAP`. -/
def Obligations.UnwrapDeliversTheSpan : Prop :=
  OnlyWord 0x00230000 .unwrap ∧
  ∀ s : State, s.err = 0 →
    (s.ibuf.count 0xC0 < 2 → exec .unwrap s = .next (latch 6 s)) ∧
    ∀ a p z, s.ibuf = a ++ [0xC0] ++ p ++ [0xC0] ++ z → (0xC0#8) ∉ a → (0xC0#8) ∉ z →
      (unstuff csf p = none → exec .unwrap s = .next (latch 5 s)) ∧
      ∀ x, unstuff csf p = some x → exec .unwrap s = .next (deliver x s)

/-! ## The packet framer -/

/-- R100, R101, R102: the header in numbers, its checksum, and reading it back. -/
def Obligations.HeaderLayoutAndChecksum : Prop :=
  (∀ (rel dip : Bool) (ack seq : SeqNum) (kind : Kind) (n : BitVec 12),
    ∃ h0 h1 h2 h3 : Byte, mkhdr rel dip ack seq kind n = [h0, h1, h2, h3] ∧
      h0.toNat = rel.toNat * 128 + dip.toNat * 64 + ack.toNat * 8 + seq.toNat ∧
      h1.toNat = n.toNat % 16 * 16 + kind.toNat ∧ h2.toNat = n.toNat / 16 ∧
      h3.toNat = (256 - (h0.toNat + h1.toNat + h2.toNat) % 256) % 256 ∧
      (h0.toNat + h1.toNat + h2.toNat + h3.toNat) % 256 = 0 ∧
      ((h0.toNat + h1.toNat + h2.toNat) % 256 = 0 → h3 = 0) ∧
      n.toNat = (h1.extractLsb' 4 4).toNat + 16 * h2.toNat ∧
      headerFields h0 h1 h2 h3 = ⟨true, n, kind, rel, dip, ack, seq⟩) ∧
  ∀ h0 h1 h2 h3 : Byte, checksumValid h0 h1 h2 h3 = true ↔
    (h0.toNat + h1.toNat + h2.toNat + h3.toNat) % 256 = 0

/-- R104: the frame of a payload of at most 4095 bytes and its length. -/
def Obligations.FrameShapeAndLength : Prop :=
  ∀ (c : Params) (seq : SeqNum) (dip rel : Bool) (kind : Kind) (p : Bytes), c.Legal → p.length ≤ 4095 →
    ∃ inner : Bytes, (frame c seq dip rel kind p).1 = [c.boundary] ++ inner ++ [c.boundary] ∧
      inner = stuff c (mkhdr rel dip 0 seq kind (BitVec.ofNat 12 p.length) ++ p ++
        le16 (crc16 c (mkhdr rel dip 0 seq kind (BitVec.ofNat 12 p.length) ++ p))) ∧
      c.boundary ∉ inner ∧
      p.length + 8 ≤ (frame c seq dip rel kind p).1.length ∧
      (frame c seq dip rel kind p).1.length ≤ 2 * (p.length + 6) + 2 ∧
      (frame c seq dip rel kind p).1.length ≤ 8204

/-- R174 with R172 and R173, `FRAME`. -/
def Obligations.FrameCommandAppendsFrame : Prop :=
  (∀ (rel dip : Bool) (kind : Kind) (seq : SeqNum),
    decode (cmdWrite (0x00300000#32 ||| (kind.setWidth 32 <<< 8) ||| ((BitVec.ofBool rel).setWidth 32 <<< 7)
      ||| ((BitVec.ofBool dip).setWidth 32 <<< 6) ||| seq.setWidth 32)) = .ok (.frame rel dip kind seq)) ∧
  (∀ v : Word, opField v = 0x30 →
    (v.extractLsb' 3 3 ≠ 0 ∨ v.extractLsb' 12 4 ≠ 0 ∨ v.extractLsb' 24 8 ≠ 0) →
    RaisesIllegal v) ∧
  ∀ (rel dip : Bool) (kind : Kind) (seq : SeqNum) (s : State), s.err = 0 →
    exec (.frame rel dip kind seq) s = .next (framed rel dip kind seq s)

/-- R175, `FRAMES`: the next number goes in the header and is kept only if the frame was produced. -/
def Obligations.FramesCommandAdvancesSeq : Prop :=
  (∀ (rel dip : Bool) (kind : Kind),
    decode (cmdWrite (0x00310000#32 ||| (kind.setWidth 32 <<< 8) ||| ((BitVec.ofBool rel).setWidth 32 <<< 7)
      ||| ((BitVec.ofBool dip).setWidth 32 <<< 6))) = .ok (.frames rel dip kind)) ∧
  (∀ v : Word, opField v = 0x31 →
    (v.extractLsb' 0 6 ≠ 0 ∨ v.extractLsb' 12 4 ≠ 0 ∨ v.extractLsb' 24 8 ≠ 0) →
    RaisesIllegal v) ∧
  ∀ (rel dip : Bool) (kind : Kind) (s : State), s.err = 0 →
    let q : SeqNum := BitVec.ofNat 3 ((s.seq.toNat + 1) % 8)
    exec (.frames rel dip kind) s =
      .next (if (framed rel dip kind q s).err = 0 then { framed rel dip kind q s with seq := q }
        else framed rel dip kind q s)

/-- R344: into an empty `OBUF` every payload of at most 4095 bytes can be framed. -/
def Obligations.LegalFrameFitsEmptyOutput : Prop :=
  ∀ (rel dip : Bool) (kind : Kind) (seq : SeqNum) (s : State),
    s.err = 0 → s.obuf = [] → s.ibuf.length ≤ 4095 →
    exec (.frame rel dip kind seq) s = .next { s with
      obuf := wire rel dip kind seq s.ibuf, ibuf := [], crc := bodyCrc rel dip kind seq s.ibuf }

/-- R177, `PARSE`, row by row of its table of outcomes. The image `ok<<24 | len<<12 | kind<<8 | rel<<7 |
dip<<6 | ack<<3 | seq` is the first three decoded bytes, the first lowest, under `ok` (R100, R176). -/
def Obligations.ParseOutcomes : Prop :=
  OnlyWord 0x00320000 .parse ∧
  ∀ s : State, s.err = 0 →
    (s.ibuf.count 0xC0 < 2 → exec .parse s = .next { latch 6 s with hdr := 0, dlen := 0 }) ∧
    ∀ a p z, s.ibuf = a ++ [0xC0] ++ p ++ [0xC0] ++ z → (0xC0#8) ∉ a → (0xC0#8) ∉ z →
      (unstuff csf p = none → exec .parse s = .next { latch 5 s with hdr := 0, dlen := 0 }) ∧
      (unstuff csf p = some [] → exec .parse s = .next { latch 7 s with hdr := 0, dlen := 0 }) ∧
      (∀ d, unstuff csf p = some d → 1 ≤ d.length → d.length ≤ 3 →
        exec .parse s = .next { latch 8 s with hdr := 0, dlen := BitVec.ofNat 14 d.length }) ∧
      ∀ d0 d1 d2 d3 r, unstuff csf p = some (d0 :: d1 :: d2 :: d3 :: r) →
        (d0 + d1 + d2 + d3 ≠ 0 → exec .parse s = .next { latch 8 s with
          hdr := 0#2 ++ d2 ++ d1 ++ d0, dlen := BitVec.ofNat 14 (r.length + 4) }) ∧
        (d0 + d1 + d2 + d3 = 0 → exec .parse s = .next { s with
          ibuf := [], hdr := 3#2 ++ d2 ++ d1 ++ d0, dlen := BitVec.ofNat 14 (r.length + 4) })

/-- R178: two buffers whose decoded spans begin with the same four bytes give the same `HDR` and `ERR`. -/
def Obligations.ParseReadsFourBytesOnly : Prop :=
  ∀ (s t u v : State) (p q r r' : Bytes) (d0 d1 d2 d3 : Byte), s.err = 0 → t.err = 0 →
    span csf s.ibuf = some p → span csf t.ibuf = some q →
    unstuff csf p = some (d0 :: d1 :: d2 :: d3 :: r) → unstuff csf q = some (d0 :: d1 :: d2 :: d3 :: r') →
    exec .parse s = .next u → exec .parse t = .next v → u.hdr = v.hdr ∧ u.err = v.err

/-- R179: the header checksum invariant. -/
def Obligations.HeaderChecksumInvariant : Prop :=
  (∀ (c : Params) (seq : SeqNum) (dip rel : Bool) (kind : Kind) (p : Bytes), c.Legal → p.length ≤ 4095 →
    ∃ d0 d1 d2 d3 r, (span c (frame c seq dip rel kind p).1).bind (unstuff c) =
      some (d0 :: d1 :: d2 :: d3 :: r) ∧ (d0.toNat + d1.toNat + d2.toNat + d3.toNat) % 256 = 0) ∧
  ∀ (s : State) (d0 d1 d2 d3 : Byte) (r : Bytes), s.err = 0 →
    (span csf s.ibuf).bind (unstuff csf) = some (d0 :: d1 :: d2 :: d3 :: r) →
    (d0.toNat + d1.toNat + d2.toNat + d3.toNat) % 256 ≠ 0 →
    ∃ t, exec .parse s = .next t ∧ t.err = 8

/-- R180, first sentence: parsing a frame reads back its operands. -/
def Obligations.ParseOfFrameReadsBack : Prop :=
  ∀ (c : Params) (seq : SeqNum) (dip rel : Bool) (kind : Kind) (p : Bytes), c.Legal → p.length ≤ 4095 →
    parse c (frame c seq dip rel kind p).1 =
      ⟨some (p.length + 6), some ⟨true, BitVec.ofNat 12 p.length, kind, rel, dip, 0, seq⟩, none⟩ ∧
    (span c (frame c seq dip rel kind p).1).bind (unstuff c) =
      some (mkhdr rel dip 0 seq kind (BitVec.ofNat 12 p.length) ++ p ++ le16 (frame c seq dip rel kind p).2)

/-- R180 in engine terms: `FRAME`, `POPALL`, `PUSHS` of the same bytes, `PARSE`. That the words popped
are read off `returned` is the model's choice (log entry 1). -/
def Obligations.FramePopPushParseRoundTrip : Prop :=
  ∀ (rel dip : Bool) (kind : Kind) (seq : SeqNum) (s : State),
    s.err = 0 → s.obuf = [] → s.ibuf.length ≤ 4095 →
    ∃ t u : State,
      serveAll [encode (.frame rel dip kind seq)] s = .next t ∧
      serveAll (popAll t) t = .next u ∧ u.obuf = [] ∧
      yielded (u.returned.drop s.returned.length) = wire rel dip kind seq s.ibuf ∧
      serveAll (pushs (wire rel dip kind seq s.ibuf) ++ [encode .parse]) u = .next { u with
        hdr := hdrWord true ⟨true, BitVec.ofNat 12 s.ibuf.length, kind, rel, dip, 0, seq⟩,
        dlen := BitVec.ofNat 14 (s.ibuf.length + 6) }

/-- R180, last sentence (program P2): `FRAME` is the pipeline of `CRC16` and `WRAP`. -/
def Obligations.FrameEqualsPipeline : Prop :=
  ∀ (rel dip : Bool) (kind : Kind) (seq : SeqNum) (p : Bytes) (s : State),
    s.err = 0 → s.ibuf = [] → p.length ≤ 4095 →
    s.obuf.length + (wire rel dip kind seq p).length ≤ 8204 →
    ∃ t u : State,
      serveAll (pushs (body rel dip kind seq p) ++ [encode .crc16]) s = .next t ∧
      serveAll (pushs (body rel dip kind seq p ++ le16 t.crc) ++ [encode .wrap]) t = .next u ∧
      serveAll (pushs p ++ [encode (.frame rel dip kind seq)]) s = .next u

/-! ## Payload marshalling -/

/-- R202, `MKPL INIT`. -/
def Obligations.MkplInitPrefixesAndPads : Prop :=
  decode (cmdWrite 0x00400000) = .ok .mkplInit ∧
  ∀ s : State, s.err = 0 → exec .mkplInit s =
    .next (if s.ibuf.length + 6 > 8204 then latch 2 s
      else { s with ibuf := [0x01, 0x00, 0x00, 0x00] ++ s.ibuf ++ [0x00, 0x00] })

/-- R203, `MKPL START`. -/
def Obligations.MkplStartLaysOutOperands : Prop :=
  decode (cmdWrite 0x00400001) = .ok .mkplStart ∧
  ∀ s : State, s.err = 0 → exec .mkplStart s =
    .next (bodyless ([0x03, 0x00, 0x00, 0x00] ++ bytes32 s.mode ++ bytes32 s.sdsize ++ bytes32 s.blsize
      ++ bytes32 s.appsize) s)

/-- R204, `MKPL DATA`. -/
def Obligations.MkplDataPrefixesOpcode : Prop :=
  decode (cmdWrite 0x00400002) = .ok .mkplData ∧
  ∀ s : State, s.err = 0 → exec .mkplData s =
    .next (if s.ibuf.length + 4 > 8204 then latch 2 s
      else { s with ibuf := [0x04, 0x00, 0x00, 0x00] ++ s.ibuf })

/-- R205 to R208: `MKPL STOPDATA`, `VALIDATE`, `ACTIVATE`, `PING`, the opcode alone; the opcodes of
`VALIDATE` and `ACTIVATE` are the OPEN parameters. -/
def Obligations.MkplOpcodeOnlyPayloads : Prop :=
  decode (cmdWrite 0x00400003) = .ok .mkplStopData ∧
  decode (cmdWrite 0x00400004) = .ok .mkplValidate ∧
  decode (cmdWrite 0x00400005) = .ok .mkplActivate ∧
  decode (cmdWrite 0x00400006) = .ok .mkplPing ∧
  ∀ s : State, s.err = 0 →
    exec .mkplStopData s = .next (bodyless [0x05, 0x00, 0x00, 0x00] s) ∧
    exec .mkplValidate s = .next (bodyless (bytes32 Config.opcValidate) s) ∧
    exec .mkplActivate s = .next (bodyless (bytes32 Config.opcActivate) s) ∧
    exec .mkplPing s = .next (bodyless [0x02, 0x00, 0x00, 0x00] s)

/-- R209, `CLASSIFY`: the least code whose opcode parameter the first four bytes spell, or 15. -/
def Obligations.ClassifyFindsLeastCode : Prop :=
  OnlyWord 0x00410000 .classify ∧
  ∀ s : State, s.err = 0 → ∃ k : BitVec 4, exec .classify s = .next { s with ptype := k } ∧
    (s.ibuf.length < 4 → k = 15) ∧
    ∀ b0 b1 b2 b3 r, s.ibuf = b0 :: b1 :: b2 :: b3 :: r →
      let v := b0.toNat + 256 * b1.toNat + 65536 * b2.toNat + 16777216 * b3.toNat
      (∀ t : PacketType, k = t.code → (opcodeOf csf t).toNat = v ∧
        ∀ u : PacketType, (opcodeOf csf u).toNat = v → t.code.toNat ≤ u.code.toNat) ∧
      (k = 15 ↔ ∀ t : PacketType, (opcodeOf csf t).toNat ≠ v) ∧ (k = 15 ∨ ∃ t : PacketType, k = t.code)

/-- A marshalled payload is classified as the type it was marshalled for, when the opcode parameters are
distinct (R200, R209, R7). -/
def Obligations.ClassifyInvertsMarshalling : Prop :=
  ∀ (c : Params) (t : PacketType) (x : Bytes) (s : State), DistinctOpcodes c →
    inferType c (payloadOf c t x s) = t.code

/-! ## Control commands, ports and reset -/

/-- R220, `NOP`: no state changes, in any state. -/
def Obligations.NopChangesNothing : Prop :=
  OnlyWord 0x00000000 .nop ∧ ∀ s : State, exec .nop s = .next s

/-- R221, `CLR_ERR`: `ERR <- 0` and nothing else, in any state. -/
def Obligations.ClrErrClearsTheLatch : Prop :=
  OnlyWord 0x00010000 .clrErr ∧ (∀ s : State, exec .clrErr s = .next { s with err := 0 }) ∧
  ∀ (s : State) (v : Word), opField v = 0x01 → v ≠ 0x00010000 →
    (s.err = 0 → serve (cmdWrite v) s = .next (latch 1 s)) ∧
    (s.err ≠ 0 → serve (cmdWrite v) s = .next s)

/-- R222, `FLUSH fi, fo`. -/
def Obligations.FlushEmptiesNamedBuffers : Prop :=
  (∀ fi fo : Bool, decode (cmdWrite (0x00020000#32 ||| ((BitVec.ofBool fo).setWidth 32 <<< 1)
    ||| (BitVec.ofBool fi).setWidth 32)) = .ok (.flush fi fo)) ∧
  (∀ v : Word, opField v = 0x02 → (v.extractLsb' 2 14 ≠ 0 ∨ v.extractLsb' 24 8 ≠ 0) → RaisesIllegal v) ∧
  ∀ s : State,
    (s.err = 0 → exec (.flush false false) s = .next s ∧
      exec (.flush true false) s = .next { s with ibuf := [] } ∧
      exec (.flush false true) s = .next { s with obuf := [] } ∧
      exec (.flush true true) s = .next { s with ibuf := [], obuf := [] }) ∧
    (s.err ≠ 0 → ∀ fi fo : Bool, exec (.flush fi fo) s = .next s)

/-- R223, `SEQ_CLR`; the next `FRAMES` carries sequence number 1. -/
def Obligations.SeqClrRestartsTheCounter : Prop :=
  OnlyWord 0x00030000 .seqClr ∧
  ∀ s : State, s.err = 0 → exec .seqClr s = .next { s with seq := 0 } ∧
    ∀ (rel dip : Bool) (kind : Kind), s.obuf = [] → s.ibuf.length ≤ 4095 →
      exec (.frames rel dip kind) { s with seq := 0 } = .next { s with
        obuf := wire rel dip kind 1 s.ibuf, ibuf := [], crc := bodyCrc rel dip kind 1 s.ibuf, seq := 1 }

/-- R226, `PUSH`. -/
def Obligations.PushAppendsOrOverflows : Prop :=
  ∀ (s : State) (v : Word),
    (s.err ≠ 0 → serve (.regWrite 0x08 4 v) s = .next s) ∧
    (s.err = 0 → exec (.push (v.extractLsb' 0 8)) s =
      .next (if s.ibuf.length = 8204 then latch 2 s
        else { s with ibuf := s.ibuf ++ [v.extractLsb' 0 8] })) ∧
    serve (.regWrite 0x08 4 v) s = exec (.push (v.extractLsb' 0 8)) s

/-- R227, `POP`: whatever `ERR` is. The word a read returns is the last of `returned` (log entry 1). -/
def Obligations.PopRemovesFrontByte : Prop :=
  ∀ s : State,
    serve (.regRead 0x0C 4) s = exec .pop s ∧
    (s.obuf = [] → exec .pop s = .next { s with returned := s.returned ++ [0x00000000] }) ∧
    ∀ b t, s.obuf = b :: t → exec .pop s =
      .next { s with obuf := t, returned := s.returned ++ [BitVec.ofNat 32 (0x100 + b.toNat)] }

/-- R228 with R61, R31 and R32, `RD`: the register's value, and nothing changes; whatever `ERR` is. The
word a read returns is the last of `returned` (log entry 1). The two premises are invariants of R37. -/
def Obligations.RdReturnsTheRegister : Prop :=
  ∀ (s : State) (r : Reg), r ≠ .dout → s.ibuf.length ≤ 8204 → s.obuf.length ≤ 8204 →
    serve (.regRead r.offset 4) s = exec (.rd r) s ∧
    exec (.rd r) s = .next { s with returned := s.returned ++ [BitVec.ofNat 32 (readValue r s)] } ∧
    readValue r s < 2 ^ 32

/-- R229, `WR`: five registers take the value, every other offset ignores it; whatever `ERR` is. -/
def Obligations.WrWritesTheWritableRegisters : Prop :=
  ∀ (s : State) (v : Word),
    (∀ r : Reg, r ≠ .cmd → r ≠ .din → serve (.regWrite r.offset 4 v) s = exec (.wr r v) s) ∧
    exec (.wr .crc v) s = .next { s with crc := v.extractLsb' 0 16 } ∧
    exec (.wr .mode v) s = .next { s with mode := v } ∧
    exec (.wr .sdsize v) s = .next { s with sdsize := v } ∧
    exec (.wr .blsize v) s = .next { s with blsize := v } ∧
    exec (.wr .appsize v) s = .next { s with appsize := v } ∧
    ∀ r ∈ [Reg.status, .dout, .seq, .hdr, .dlen, .icount, .ocount, .ptype, .reserved2C],
      exec (.wr r v) s = .next s

/-- `POPALL` yields the bytes of `OBUF` in order and leaves it empty (R27, R116, R227). That the words
popped are read off `returned` is the model's choice (log entry 1). -/
def Obligations.PopAllYieldsOutputInOrder : Prop :=
  ∀ s : State, ∃ ws : List Word,
    serveAll (popAll s) s = .next { s with obuf := [], returned := s.returned ++ ws } ∧
    yielded ws = s.obuf ∧ ws.length = s.obuf.length + 1 ∧ ws.getLast? = some 0

/-- R38 and R330: what reset leaves, in any state, and the state after reset. -/
def Obligations.ResetSetsEveryRegister : Prop :=
  (∀ s : State, ∃ t : State, serve .reset s = .next t ∧ exec .reset s = .next t ∧ AtReset t) ∧
  AtReset State.reset

/-- R333: `CLR_ERR`, `FLUSH IO`, `SEQ_CLR` bring `ERR`, `IBUF`, `OBUF` and `SEQ` to their reset values. -/
def Obligations.SessionStartRestoresResetValues : Prop :=
  ∀ s : State, serveAll [encode .clrErr, encode (.flush true true), encode .seqClr] s =
    .next { s with err := State.reset.err, ibuf := State.reset.ibuf, obuf := State.reset.obuf,
                   seq := State.reset.seq }

/-! ## Whole-machine rules -/

/-- R290: a fault is raised only by a `CMD` or `DIN` write made while `ERR = 0`, and is in `STATUS` for
the next access. -/
def Obligations.OnlyCmdAndDinWritesRaise : Prop :=
  ∀ (a : Access) (s t : State), serve a s = .next t → t.err ≠ s.err → t.err ≠ 0 →
    s.err = 0 ∧ (∃ v, a = .regWrite 0x00 4 v ∨ a = .regWrite 0x08 4 v) ∧
    ∃ w, serve (.regRead 0x04 4) t = .next { t with returned := t.returned ++ [w] } ∧
      w.extractLsb' 0 4 = t.err

/-- R295: faults are precise. An access that leaves a fault latched where none was has no other effect,
but for the result registers of `PARSE`. -/
def Obligations.FaultsHaveNoPartialEffect : Prop :=
  ∀ (a : Access) (s t : State), serve a s = .next t → s.err = 0 → t.err ≠ 0 →
    1 ≤ t.err.toNat ∧ t.err.toNat ≤ 9 ∧
    (decode a ≠ .ok .parse → t = latch t.err s) ∧
    (decode a = .ok .parse → t = { latch t.err s with hdr := t.hdr, dlen := t.dlen })

/-- R296: the faulted condition. `CMD` writes but `CLR_ERR`, and `DIN` writes, are ignored; `POP`, reads
and register writes work as in the state with no fault latched. -/
def Obligations.FaultedConditionIgnoresWork : Prop :=
  ∀ s : State, s.err ≠ 0 →
    (∀ w : Word, w ≠ 0x00010000 → serve (cmdWrite w) s = .next s) ∧
    (∀ v : Word, serve (.regWrite 0x08 4 v) s = .next s) ∧
    (∀ t, exec .pop { s with err := 0 } = .next t → exec .pop s = .next { t with err := s.err }) ∧
    (∀ r : Reg, r ≠ .dout → ∃ v, exec (.rd r) s = .next { s with returned := s.returned ++ [v] } ∧
      (r ≠ .status → exec (.rd r) { s with err := 0 } =
        .next { s with err := 0, returned := s.returned ++ [v] })) ∧
    ∀ (r : Reg) (v : Word) (t : State), exec (.wr r v) { s with err := 0 } = .next t →
      exec (.wr r v) s = .next { t with err := s.err }

/-- R25, R297: only `CLR_ERR` and reset leave the faulted condition, and until then `ERR` keeps the code
of the first fault. -/
def Obligations.OnlyClearOrResetLeavesFault : Prop :=
  ∀ (a : Access) (s t : State), s.err ≠ 0 → serve a s = .next t →
    (decode a = .ok .clrErr ∧ t = { s with err := 0 }) ∨ decode a = .ok .reset ∨ t.err = s.err

/-- R21 to R23, R27 to R30, R230: what may write each piece of state. -/
def Obligations.OnlyListedOperationsWriteState : Prop :=
  ∀ (a : Access) (s t : State), serve a s = .next t →
    (t.crc ≠ s.crc → ∃ i, decode a = .ok i ∧ writesCrc i = true) ∧
    (t.seq ≠ s.seq → ∃ i, decode a = .ok i ∧ writesSeq i = true) ∧
    (t.obuf ≠ s.obuf → ∃ i, decode a = .ok i ∧ writesObuf i = true) ∧
    (t.hdr ≠ s.hdr ∨ t.dlen ≠ s.dlen → decode a = .ok .parse ∨ decode a = .ok .reset) ∧
    (t.ptype ≠ s.ptype → decode a = .ok .classify ∨ decode a = .ok .reset) ∧
    ((t.mode, t.sdsize, t.blsize, t.appsize) ≠ (s.mode, s.sdsize, s.blsize, s.appsize) →
      ∃ i, decode a = .ok i ∧ writesOperands i = true)

/-- R20: the host's side, which is the model's choice (log entries 1 and 9), does not influence the
engine. What is pending and what has been returned changes neither the outcome of an access nor the word
it returns; an access returns at most one word. -/
def Obligations.HostSideDoesNotInfluenceEngine : Prop :=
  (∀ (a : Access) (s t : State) (q : List Access) (ws : List Word), serve a s = .next t →
    serve a { s with pending := q, returned := ws } = .next { t with
      pending := q, returned := ws ++ t.returned.drop s.returned.length }) ∧
  ∀ (a : Access) (s t : State), serve a s = .next t → t.pending = s.pending ∧
    (t.returned = s.returned ∨
      ∃ i w, decode a = .ok i ∧ returnsWord i = true ∧ t.returned = s.returned ++ [w])

/-- R37: every step keeps the invariants, from every state that meets them. -/
def Obligations.EveryStepKeepsInvariants : Prop :=
  ∀ s t : State, s.Inv → step s = .next t → t.Inv

/-- R37 at reset, with any host program pending. -/
def Obligations.ResetMeetsInvariants : Prop := ∀ program : List Access, (afterReset program).Inv

/-- R37: every reachable state meets the invariants. -/
def Obligations.ReachableStatesMeetInvariants : Prop := ∀ s : State, Reachable s → s.Inv
end

