-- ==== Sys2Proof/Laws/Decode.lean ====
section
/-!
SUPPORT. What the decoder can do, said once: the window, the opcode map, and the accesses of the named
registers.
-/

namespace Sys2Proof

@[simp] theorem regAt_offset (r : Reg) : regAt r.offset = some r := by cases r <;> rfl

theorem offset_of_regAt {off : Nat} {r : Reg} (h : regAt off = some r) : r.offset = off := by
  unfold regAt at h
  split at h <;> first | (cases h; rfl) | cases h

theorem Reg.offset_lt (r : Reg) : r.offset < 0x40 := by cases r <;> decide

theorem regAt_outside {off : Nat} (h : 0x40 ≤ off) : regAt off = none := by
  cases hr : regAt off with
  | none => rfl
  | some r => exact absurd (offset_of_regAt hr ▸ r.offset_lt) (Nat.not_lt.mpr h)

theorem regAt_inside {off : Nat} (h : off < 0x40) (ha : off % 4 = 0) : ∃ r, regAt off = some r := by
  have key : ∀ n < 0x40, n % 4 = 0 → (regAt n).isSome = true := by decide
  exact Option.isSome_iff_exists.mp (key off h ha)

@[simp] theorem locate_offset (r : Reg) : locate r.offset 4 = .ok r := by cases r <;> rfl

/-- Everything `locate` can do (R61, R63, R64). -/
theorem locate_cases (off size : Nat) :
    ((size ≠ 4 ∨ off % 4 ≠ 0) ∧ locate off size = .error .notAlignedWord) ∨
    (size = 4 ∧ off % 4 = 0 ∧ 0x40 ≤ off ∧ locate off size = .error .outsideWindow) ∨
    ∃ r : Reg, size = 4 ∧ r.offset = off ∧ locate off size = .ok r := by
  unfold locate
  split
  · exact .inl ⟨‹_›, rfl⟩
  · rename_i h
    have hs : size = 4 := by omega
    have ha : off % 4 = 0 := by omega
    by_cases hw : off < 0x40
    · obtain ⟨r, hr⟩ := regAt_inside hw ha
      exact .inr (.inr ⟨r, hs, offset_of_regAt hr, by simp [hr]⟩)
    · exact .inr (.inl ⟨hs, ha, by omega, by simp [regAt_outside (Nat.le_of_not_lt hw)]⟩)

@[simp] theorem decode_wordRead (r : Reg) : decode (wordRead r) = .ok (decodeRead r) := by
  simp [wordRead, decode]

@[simp] theorem decode_wordWrite (r : Reg) (v : Word) : decode (wordWrite r v) = decodeWrite r v := by
  simp [wordWrite, decode]

/-- A write at offset 0 is decoded as a command word. -/
theorem decode_cmd (v : Word) :
    decode (.regWrite 0x00 4 v) = match decodeCommand v with
      | some i => .ok i
      | none => .error .illegalCommand := rfl

/-- What selects a command: one row of the map, whose operands are read from the word. -/
theorem decodeCommand_row {w : Word} {i : Instr} (h : decodeCommand w = some i) :
    ∃ r ∈ commandRows, w &&& r.mask = r.pat ∧ i = r.read w := by
  unfold decodeCommand at h
  obtain ⟨r, hr, rfl⟩ := Option.map_eq_some_iff.mp h
  exact ⟨r, List.mem_of_find?_eq_some hr,
    by simpa [CommandRow.selects] using List.find?_some hr, rfl⟩

/-- A word no row selects is illegal. -/
theorem decodeCommand_none {w : Word} (h : ∀ r ∈ commandRows, w &&& r.mask ≠ r.pat) :
    decodeCommand w = none := by
  unfold decodeCommand
  rw [List.find?_eq_none.mpr (fun r hr => by simpa [CommandRow.selects] using h r hr)]
  rfl

/-- Two rows of the map differ in a bit both of them fix, so no word matches two (R94). -/
theorem commandRows_disjoint :
    commandRows.Pairwise (fun r q => r.pat &&& q.mask ≠ q.pat &&& r.mask) := by
  decide

end Sys2Proof
end

