-- ==== Sys2Proof/Laws/State.lean ====
section
/-!
SUPPORT. One lemma per field for each named update of the state, so that no proof unfolds a record
update.
-/

namespace Sys2Proof.Machine

/-! ## `raise` (R295) -/

@[simp] theorem raise_crc (f : Cause) (s : State) : (raise f s).crc = s.crc := rfl
@[simp] theorem raise_seq (f : Cause) (s : State) : (raise f s).seq = s.seq := rfl
@[simp] theorem raise_err (f : Cause) (s : State) : (raise f s).err = f.code := rfl
@[simp] theorem raise_ibuf (f : Cause) (s : State) : (raise f s).ibuf = [] := rfl
@[simp] theorem raise_obuf (f : Cause) (s : State) : (raise f s).obuf = s.obuf := rfl
@[simp] theorem raise_hdr (f : Cause) (s : State) : (raise f s).hdr = s.hdr := rfl
@[simp] theorem raise_dlen (f : Cause) (s : State) : (raise f s).dlen = s.dlen := rfl
@[simp] theorem raise_ptype (f : Cause) (s : State) : (raise f s).ptype = s.ptype := rfl
@[simp] theorem raise_mode (f : Cause) (s : State) : (raise f s).mode = s.mode := rfl
@[simp] theorem raise_sdsize (f : Cause) (s : State) : (raise f s).sdsize = s.sdsize := rfl
@[simp] theorem raise_blsize (f : Cause) (s : State) : (raise f s).blsize = s.blsize := rfl
@[simp] theorem raise_appsize (f : Cause) (s : State) : (raise f s).appsize = s.appsize := rfl
@[simp] theorem raise_pending (f : Cause) (s : State) : (raise f s).pending = s.pending := rfl
@[simp] theorem raise_returned (f : Cause) (s : State) : (raise f s).returned = s.returned := rfl

/-! ## `clearFault` (R297) -/

@[simp] theorem clearFault_crc (s : State) : (clearFault s).crc = s.crc := rfl
@[simp] theorem clearFault_seq (s : State) : (clearFault s).seq = s.seq := rfl
@[simp] theorem clearFault_err (s : State) : (clearFault s).err = 0 := rfl
@[simp] theorem clearFault_ibuf (s : State) : (clearFault s).ibuf = s.ibuf := rfl
@[simp] theorem clearFault_obuf (s : State) : (clearFault s).obuf = s.obuf := rfl
@[simp] theorem clearFault_hdr (s : State) : (clearFault s).hdr = s.hdr := rfl
@[simp] theorem clearFault_dlen (s : State) : (clearFault s).dlen = s.dlen := rfl
@[simp] theorem clearFault_ptype (s : State) : (clearFault s).ptype = s.ptype := rfl
@[simp] theorem clearFault_mode (s : State) : (clearFault s).mode = s.mode := rfl
@[simp] theorem clearFault_sdsize (s : State) : (clearFault s).sdsize = s.sdsize := rfl
@[simp] theorem clearFault_blsize (s : State) : (clearFault s).blsize = s.blsize := rfl
@[simp] theorem clearFault_appsize (s : State) : (clearFault s).appsize = s.appsize := rfl
@[simp] theorem clearFault_pending (s : State) : (clearFault s).pending = s.pending := rfl
@[simp] theorem clearFault_returned (s : State) : (clearFault s).returned = s.returned := rfl

/-! ## `consume` (R26) -/

@[simp] theorem consume_crc (s : State) : (consume s).crc = s.crc := rfl
@[simp] theorem consume_seq (s : State) : (consume s).seq = s.seq := rfl
@[simp] theorem consume_err (s : State) : (consume s).err = s.err := rfl
@[simp] theorem consume_ibuf (s : State) : (consume s).ibuf = [] := rfl
@[simp] theorem consume_obuf (s : State) : (consume s).obuf = s.obuf := rfl
@[simp] theorem consume_hdr (s : State) : (consume s).hdr = s.hdr := rfl
@[simp] theorem consume_dlen (s : State) : (consume s).dlen = s.dlen := rfl
@[simp] theorem consume_ptype (s : State) : (consume s).ptype = s.ptype := rfl
@[simp] theorem consume_mode (s : State) : (consume s).mode = s.mode := rfl
@[simp] theorem consume_sdsize (s : State) : (consume s).sdsize = s.sdsize := rfl
@[simp] theorem consume_blsize (s : State) : (consume s).blsize = s.blsize := rfl
@[simp] theorem consume_appsize (s : State) : (consume s).appsize = s.appsize := rfl
@[simp] theorem consume_pending (s : State) : (consume s).pending = s.pending := rfl
@[simp] theorem consume_returned (s : State) : (consume s).returned = s.returned := rfl

/-! ## `appendOut` (R27) -/

@[simp] theorem appendOut_crc (y : Bytes) (s : State) : (appendOut y s).crc = s.crc := rfl
@[simp] theorem appendOut_seq (y : Bytes) (s : State) : (appendOut y s).seq = s.seq := rfl
@[simp] theorem appendOut_err (y : Bytes) (s : State) : (appendOut y s).err = s.err := rfl
@[simp] theorem appendOut_ibuf (y : Bytes) (s : State) : (appendOut y s).ibuf = s.ibuf := rfl
@[simp] theorem appendOut_obuf (y : Bytes) (s : State) : (appendOut y s).obuf = s.obuf ++ y := rfl
@[simp] theorem appendOut_hdr (y : Bytes) (s : State) : (appendOut y s).hdr = s.hdr := rfl
@[simp] theorem appendOut_dlen (y : Bytes) (s : State) : (appendOut y s).dlen = s.dlen := rfl
@[simp] theorem appendOut_ptype (y : Bytes) (s : State) : (appendOut y s).ptype = s.ptype := rfl
@[simp] theorem appendOut_mode (y : Bytes) (s : State) : (appendOut y s).mode = s.mode := rfl
@[simp] theorem appendOut_sdsize (y : Bytes) (s : State) : (appendOut y s).sdsize = s.sdsize := rfl
@[simp] theorem appendOut_blsize (y : Bytes) (s : State) : (appendOut y s).blsize = s.blsize := rfl
@[simp] theorem appendOut_appsize (y : Bytes) (s : State) : (appendOut y s).appsize = s.appsize := rfl
@[simp] theorem appendOut_pending (y : Bytes) (s : State) : (appendOut y s).pending = s.pending := rfl
@[simp] theorem appendOut_returned (y : Bytes) (s : State) : (appendOut y s).returned = s.returned := rfl

/-! ## `answer` (R62) -/

@[simp] theorem answer_crc (v : Word) (s : State) : (answer v s).crc = s.crc := rfl
@[simp] theorem answer_seq (v : Word) (s : State) : (answer v s).seq = s.seq := rfl
@[simp] theorem answer_err (v : Word) (s : State) : (answer v s).err = s.err := rfl
@[simp] theorem answer_ibuf (v : Word) (s : State) : (answer v s).ibuf = s.ibuf := rfl
@[simp] theorem answer_obuf (v : Word) (s : State) : (answer v s).obuf = s.obuf := rfl
@[simp] theorem answer_hdr (v : Word) (s : State) : (answer v s).hdr = s.hdr := rfl
@[simp] theorem answer_dlen (v : Word) (s : State) : (answer v s).dlen = s.dlen := rfl
@[simp] theorem answer_ptype (v : Word) (s : State) : (answer v s).ptype = s.ptype := rfl
@[simp] theorem answer_mode (v : Word) (s : State) : (answer v s).mode = s.mode := rfl
@[simp] theorem answer_sdsize (v : Word) (s : State) : (answer v s).sdsize = s.sdsize := rfl
@[simp] theorem answer_blsize (v : Word) (s : State) : (answer v s).blsize = s.blsize := rfl
@[simp] theorem answer_appsize (v : Word) (s : State) : (answer v s).appsize = s.appsize := rfl
@[simp] theorem answer_pending (v : Word) (s : State) : (answer v s).pending = s.pending := rfl
@[simp] theorem answer_returned (v : Word) (s : State) : (answer v s).returned = s.returned ++ [v] := rfl

/-! ## `parseResults` (R177) -/

@[simp] theorem parseResults_crc (v : ParseResult) (s : State) : (parseResults v s).crc = s.crc := rfl
@[simp] theorem parseResults_seq (v : ParseResult) (s : State) : (parseResults v s).seq = s.seq := rfl
@[simp] theorem parseResults_err (v : ParseResult) (s : State) : (parseResults v s).err = s.err := rfl
@[simp] theorem parseResults_ibuf (v : ParseResult) (s : State) : (parseResults v s).ibuf = s.ibuf := rfl
@[simp] theorem parseResults_obuf (v : ParseResult) (s : State) : (parseResults v s).obuf = s.obuf := rfl
@[simp] theorem parseResults_hdr (v : ParseResult) (s : State) : (parseResults v s).hdr = parsedHdr v := rfl
@[simp] theorem parseResults_dlen (v : ParseResult) (s : State) : (parseResults v s).dlen = BitVec.ofNat 14 (v.dlen.getD 0) := rfl
@[simp] theorem parseResults_ptype (v : ParseResult) (s : State) : (parseResults v s).ptype = s.ptype := rfl
@[simp] theorem parseResults_mode (v : ParseResult) (s : State) : (parseResults v s).mode = s.mode := rfl
@[simp] theorem parseResults_sdsize (v : ParseResult) (s : State) : (parseResults v s).sdsize = s.sdsize := rfl
@[simp] theorem parseResults_blsize (v : ParseResult) (s : State) : (parseResults v s).blsize = s.blsize := rfl
@[simp] theorem parseResults_appsize (v : ParseResult) (s : State) : (parseResults v s).appsize = s.appsize := rfl
@[simp] theorem parseResults_pending (v : ParseResult) (s : State) : (parseResults v s).pending = s.pending := rfl
@[simp] theorem parseResults_returned (v : ParseResult) (s : State) : (parseResults v s).returned = s.returned := rfl

/-! ## `issueFirst` (log entry 1) -/

@[simp] theorem issueFirst_crc (a : Access) (s : State) : (issueFirst a s).crc = s.crc := rfl
@[simp] theorem issueFirst_seq (a : Access) (s : State) : (issueFirst a s).seq = s.seq := rfl
@[simp] theorem issueFirst_err (a : Access) (s : State) : (issueFirst a s).err = s.err := rfl
@[simp] theorem issueFirst_ibuf (a : Access) (s : State) : (issueFirst a s).ibuf = s.ibuf := rfl
@[simp] theorem issueFirst_obuf (a : Access) (s : State) : (issueFirst a s).obuf = s.obuf := rfl
@[simp] theorem issueFirst_hdr (a : Access) (s : State) : (issueFirst a s).hdr = s.hdr := rfl
@[simp] theorem issueFirst_dlen (a : Access) (s : State) : (issueFirst a s).dlen = s.dlen := rfl
@[simp] theorem issueFirst_ptype (a : Access) (s : State) : (issueFirst a s).ptype = s.ptype := rfl
@[simp] theorem issueFirst_mode (a : Access) (s : State) : (issueFirst a s).mode = s.mode := rfl
@[simp] theorem issueFirst_sdsize (a : Access) (s : State) : (issueFirst a s).sdsize = s.sdsize := rfl
@[simp] theorem issueFirst_blsize (a : Access) (s : State) : (issueFirst a s).blsize = s.blsize := rfl
@[simp] theorem issueFirst_appsize (a : Access) (s : State) : (issueFirst a s).appsize = s.appsize := rfl
@[simp] theorem issueFirst_pending (a : Access) (s : State) : (issueFirst a s).pending = a :: s.pending := rfl
@[simp] theorem issueFirst_returned (a : Access) (s : State) : (issueFirst a s).returned = s.returned := rfl

/-! ## `writeReg` (R61, R229): what a register write leaves -/

@[simp] theorem writeReg_seq (r : Reg) (v : Word) (s : State) : (writeReg r v s).seq = s.seq := by cases r <;> rfl
@[simp] theorem writeReg_err (r : Reg) (v : Word) (s : State) : (writeReg r v s).err = s.err := by cases r <;> rfl
@[simp] theorem writeReg_ibuf (r : Reg) (v : Word) (s : State) : (writeReg r v s).ibuf = s.ibuf := by cases r <;> rfl
@[simp] theorem writeReg_obuf (r : Reg) (v : Word) (s : State) : (writeReg r v s).obuf = s.obuf := by cases r <;> rfl
@[simp] theorem writeReg_hdr (r : Reg) (v : Word) (s : State) : (writeReg r v s).hdr = s.hdr := by cases r <;> rfl
@[simp] theorem writeReg_dlen (r : Reg) (v : Word) (s : State) : (writeReg r v s).dlen = s.dlen := by cases r <;> rfl
@[simp] theorem writeReg_ptype (r : Reg) (v : Word) (s : State) : (writeReg r v s).ptype = s.ptype := by cases r <;> rfl
@[simp] theorem writeReg_pending (r : Reg) (v : Word) (s : State) : (writeReg r v s).pending = s.pending := by cases r <;> rfl
@[simp] theorem writeReg_returned (r : Reg) (v : Word) (s : State) : (writeReg r v s).returned = s.returned := by cases r <;> rfl

/-! ## The configuration (R6) -/

@[simp] theorem csf_boundary : csf.boundary = 0xC0 := rfl
@[simp] theorem csf_esc : csf.esc = 0xDB := rfl
@[simp] theorem csf_escBoundary : csf.escBoundary = 0xDC := rfl
@[simp] theorem csf_escEsc : csf.escEsc = 0xDD := rfl
@[simp] theorem csf_crcInit : csf.crcInit = 0xFFFF := rfl
@[simp] theorem csf_ibufCap : csf.ibufCap = 8204 := rfl
@[simp] theorem csf_obufCap : csf.obufCap = 8204 := rfl
@[simp] theorem csf_lenBits : csf.lenBits = 12 := rfl
@[simp] theorem csf_maxPayload : csf.maxPayload = 4095 := rfl
@[simp] theorem csf_seqBits : csf.seqBits = 3 := rfl

/-- The decided values meet the constraints of R7. -/
theorem csf_legal : csf.Legal := by unfold Params.Legal; decide

end Sys2Proof.Machine
end

