-- ==== Sys2Proof/Laws/Ops.lean ====
section
/-!
SUPPORT. For each shared operation, what it can do, said once: the gate, a command's outcomes, the
output buffer, the framer's and the marshaller's common bodies, the results of `parse`, and serving an
access.
-/

namespace Sys2Proof.Machine

/-! ## The gate and a command's outcomes -/

theorem gated_clear {s : State} (t : State) (h : s.err = 0) : gated s t = t := if_pos h

theorem gated_faulted {s : State} (t : State) (h : s.err ≠ 0) : gated s t = s := if_neg h

theorem command_clear_ok {s t : State} (h : s.err = 0) : command s (.ok t) = .next t := by
  simp [command, gated_clear _ h, settle]

theorem command_clear_error {s : State} {f : Cause} (h : s.err = 0) :
    command s (.error f) = .next (raise f s) := by
  simp [command, gated_clear _ h, settle]

theorem command_faulted {s : State} (body : Except Cause State) (h : s.err ≠ 0) :
    command s body = .next s := by
  simp [command, gated_faulted _ h]

/-- Everything a command can do: it is ignored, or its body happens, or it raises. -/
theorem command_cases {s u : State} {body : Except Cause State} (h : command s body = .next u) :
    (s.err ≠ 0 ∧ u = s) ∨ (s.err = 0 ∧ body = .ok u) ∨ ∃ f, s.err = 0 ∧ body = .error f ∧ u = raise f s := by
  by_cases he : s.err = 0
  · cases body with
    | ok t => rw [command_clear_ok he] at h; cases h; exact .inr (.inl ⟨he, rfl⟩)
    | error f => rw [command_clear_error he] at h; cases h; exact .inr (.inr ⟨f, he, rfl, rfl⟩)
  · rw [command_faulted body he] at h; cases h; exact .inl ⟨he, rfl⟩

theorem command_next (s : State) (body : Except Cause State) : ∃ t, command s body = .next t := ⟨_, rfl⟩

/-! ## Fault codes -/

theorem code_ne_zero (f : Cause) : f.code ≠ 0 := by cases f <;> decide

theorem code_range (f : Cause) : 1 ≤ f.code.toNat ∧ f.code.toNat ≤ 9 := by cases f <;> decide

theorem code_injective {f g : Cause} (h : f.code = g.code) : f = g := by
  cases f <;> cases g <;> first | rfl | exact absurd h (by decide)

/-! ## The output buffer -/

/-- Everything `emit` can do. -/
theorem emit_cases (y : Bytes) (s : State) :
    (s.obuf.length + y.length ≤ csf.obufCap ∧ emit y s = .ok (appendOut y s)) ∨
    (csf.obufCap < s.obuf.length + y.length ∧ emit y s = .error .outputOverflow) := by
  unfold emit
  split
  · exact .inr ⟨‹_›, rfl⟩
  · exact .inl ⟨by omega, rfl⟩

/-- Everything `emitConsume` can do. -/
theorem emitConsume_cases (y : Bytes) (s : State) :
    (s.obuf.length + y.length ≤ csf.obufCap ∧ emitConsume y s = .ok (consume (appendOut y s))) ∨
    (csf.obufCap < s.obuf.length + y.length ∧ emitConsume y s = .error .outputOverflow) := by
  rcases emit_cases y s with ⟨h, e⟩ | ⟨h, e⟩
  · exact .inl ⟨h, by simp [emitConsume, e, Except.map]⟩
  · exact .inr ⟨h, by simp [emitConsume, e, Except.map]⟩

/-! ## The framer -/

/-- Everything `doFrame` can do (R172). -/
theorem doFrame_cases (q : SeqNum) (dip rel : Bool) (kind : Kind) (s : State) :
    (csf.maxPayload < s.ibuf.length ∧ doFrame q dip rel kind s = .error .lengthOverflow) ∨
    (s.ibuf.length ≤ csf.maxPayload ∧
      csf.obufCap < s.obuf.length + (frame csf q dip rel kind s.ibuf).1.length ∧
      doFrame q dip rel kind s = .error .outputOverflow) ∨
    (s.ibuf.length ≤ csf.maxPayload ∧
      s.obuf.length + (frame csf q dip rel kind s.ibuf).1.length ≤ csf.obufCap ∧
      doFrame q dip rel kind s = .ok { consume (appendOut (frame csf q dip rel kind s.ibuf).1 s) with
        crc := (frame csf q dip rel kind s.ibuf).2 }) := by
  unfold doFrame
  split
  · exact .inl ⟨‹_›, rfl⟩
  · have hn : s.ibuf.length ≤ csf.maxPayload := by omega
    rcases emitConsume_cases (frame csf q dip rel kind s.ibuf).1 s with ⟨h, e⟩ | ⟨h, e⟩
    · exact .inr (.inr ⟨hn, h, by simp [e, Except.map]⟩)
    · exact .inr (.inl ⟨hn, h, by simp [e, Except.map]⟩)

/-- The engine's counter has three bits, so advancing it is adding one to it, and 7 is followed by 0. -/
theorem nextSeq_csf (q : SeqNum) : nextSeq csf q = q + 1 :=
  BitVec.eq_of_toNat_eq (by simp [nextSeq, BitVec.toNat_add])

/-- Everything the decoded part of `parse` can give (R176). -/
theorem parseDecoded_cases (d : Bytes) :
    (d = [] ∧ parseDecoded d = ⟨some 0, none, some .shortResponse⟩) ∨
    (1 ≤ d.length ∧ d.length ≤ 3 ∧ parseDecoded d = ⟨some d.length, none, some .malformedHeader⟩) ∨
    ∃ d0 d1 d2 d3 r, d = d0 :: d1 :: d2 :: d3 :: r ∧
      parseDecoded d = ⟨some d.length, some (headerFields d0 d1 d2 d3),
        if (headerFields d0 d1 d2 d3).ok then none else some .malformedHeader⟩ := by
  match d with
  | [] => exact .inl ⟨rfl, rfl⟩
  | [_] => exact .inr (.inl ⟨by simp, by simp, rfl⟩)
  | [_, _] => exact .inr (.inl ⟨by simp, by simp, rfl⟩)
  | [_, _, _] => exact .inr (.inl ⟨by simp, by simp, rfl⟩)
  | d0 :: d1 :: d2 :: d3 :: r => exact .inr (.inr ⟨d0, d1, d2, d3, r, rfl, rfl⟩)

/-- Everything `parse` can give (R176). -/
theorem parse_cases (c : Params) (r : Bytes) :
    (span c r = none ∧ parse c r = ⟨none, none, some .noFrame⟩) ∨
    (∃ p, span c r = some p ∧ unstuff c p = none ∧ parse c r = ⟨none, none, some .badStuffing⟩) ∨
    ∃ p d, span c r = some p ∧ unstuff c p = some d ∧ parse c r = parseDecoded d := by
  unfold parse
  cases hs : span c r with
  | none => exact .inl ⟨rfl, rfl⟩
  | some p =>
    cases hu : unstuff c p with
    | none => exact .inr (.inl ⟨p, rfl, hu, by simp [hu]⟩)
    | some d => exact .inr (.inr ⟨p, d, rfl, hu, by simp [hu]⟩)

/-! ## The marshaller -/

/-- Everything `marshal` can do (R201). -/
theorem marshal_cases (t : PacketType) (s : State) :
    (takesBody t = false ∧ s.ibuf ≠ [] ∧ marshal t s = .error .badOperand) ∨
    ((takesBody t = true ∨ s.ibuf = []) ∧ csf.ibufCap < (payloadOf csf t s.ibuf s).length ∧
      marshal t s = .error .inputOverflow) ∨
    ((takesBody t = true ∨ s.ibuf = []) ∧ (payloadOf csf t s.ibuf s).length ≤ csf.ibufCap ∧
      marshal t s = .ok { s with ibuf := payloadOf csf t s.ibuf s }) := by
  unfold marshal
  split
  · rename_i h
    exact .inl ⟨h.1, fun he => h.2 (by simp [he]), rfl⟩
  · rename_i h
    have hb : takesBody t = true ∨ s.ibuf = [] := by
      cases ht : takesBody t with
      | true => exact .inl rfl
      | false => exact .inr (by simpa [ht] using h)
    simp only []
    split
    · exact .inr (.inl ⟨hb, ‹_›, rfl⟩)
    · exact .inr (.inr ⟨hb, by omega, rfl⟩)

/-! ## Serving an access -/

theorem serve_ok {a : Access} {i : Instr} (s : State) (h : decode a = .ok i) : serve a s = exec i s := by
  simp [serve, h]

theorem serve_illegal {a : Access} (s : State) (h : decode a = .error .illegalCommand) :
    serve a s = .next (illegalCommand s) := by
  simp [serve, h]

/-- Everything serving an access can do when it gives a next state: the decoded instruction ran, or the
word was illegal. -/
theorem serve_cases {a : Access} {s t : State} (h : serve a s = .next t) :
    (∃ i, decode a = .ok i ∧ exec i s = .next t) ∨
    (decode a = .error .illegalCommand ∧ t = illegalCommand s) := by
  unfold serve at h
  cases hd : decode a with
  | ok i => rw [hd] at h; exact .inl ⟨i, rfl, h⟩
  | error e =>
    rw [hd] at h
    cases e with
    | illegalCommand => cases h; exact .inr ⟨rfl, rfl⟩
    | notAlignedWord => cases h
    | outsideWindow => cases h

theorem serveAll_append (as bs : List Access) (s : State) :
    serveAll (as ++ bs) s = match serveAll as s with
      | .next t => serveAll bs t
      | .fault r => .fault r
      | .refused r => .refused r := by
  induction as generalizing s with
  | nil => rfl
  | cons a as ih =>
    simp only [List.cons_append, serveAll]
    cases serve a s with
    | next t => exact ih t
    | fault r => rfl
    | refused r => rfl

/-! ## The buffers' functions -/

@[simp] theorem le16_length (v : BitVec 16) : (le16 v).length = 2 := rfl

@[simp] theorem le32_length (v : Word) : (le32 v).length = 4 := rfl

@[simp] theorem mkhdr_length (rel dip : Bool) (ack q : SeqNum) (kind : Kind) (n : BitVec 12) :
    (mkhdr rel dip ack q kind n).length = 4 := rfl

theorem unstuff_length_le (c : Params) (y x : Bytes) (h : unstuff c y = some x) : x.length ≤ y.length := by
  induction y using unstuff.induct (c := c) generalizing x with
  | case1 => simp [unstuff] at h; simp [← h]
  | case2 => simp_all [unstuff]
  | case3 => simp_all [unstuff]
  | case4 b h1 h2 => simp [unstuff, h1, h2] at h; simp [← h]
  | case5 => simp_all [unstuff]
  | case6 t h1 ih =>
    simp [unstuff] at h
    obtain ⟨-, z, hz, rfl⟩ := h
    simpa using Nat.le_succ_of_le (ih z hz)
  | case7 t h1 h2 ih =>
    simp [unstuff, h1, h2] at h
    obtain ⟨z, hz, rfl⟩ := h
    simpa using Nat.le_succ_of_le (ih z hz)
  | case8 => simp_all [unstuff]
  | case9 b e t h1 h2 ih =>
    simp [unstuff, h1, h2] at h
    obtain ⟨z, hz, rfl⟩ := h
    simpa using ih z hz

end Sys2Proof.Machine
end

