-- ==== Sys2Proof/Laws/PerInstr.lean ====
section
/-!
SUPPORT. Statements made of every instruction, one lemma per constructor of `Instr`.
-/

namespace Sys2Proof.Laws.EncodesInWindow

/-- An access the engine answers: reset, or one aligned 32-bit word inside the window (R61, R63). -/
def InWindow : Access → Prop
  | .regWrite off size _ => size = 4 ∧ off % 4 = 0 ∧ off < 0x40
  | .regRead off size => size = 4 ∧ off % 4 = 0 ∧ off < 0x40
  | .reset => True

/-- The encoder gives every instruction an access the engine answers. -/
def Statement (i : Instr) : Prop := InWindow (Sys2Proof.encode i)

theorem nop : Statement .nop := ⟨rfl, rfl, by decide⟩

theorem clrErr : Statement .clrErr := ⟨rfl, rfl, by decide⟩

theorem flush (fi fo : Bool) : Statement (.flush fi fo) := ⟨rfl, rfl, by decide⟩

theorem seqClr : Statement .seqClr := ⟨rfl, rfl, by decide⟩

theorem crcInit : Statement .crcInit := ⟨rfl, rfl, by decide⟩

theorem crcByte (byte : Byte) : Statement (.crcByte byte) := ⟨rfl, rfl, by decide⟩

theorem crcBuf : Statement .crcBuf := ⟨rfl, rfl, by decide⟩

theorem crc16 : Statement .crc16 := ⟨rfl, rfl, by decide⟩

theorem crcPut : Statement .crcPut := ⟨rfl, rfl, by decide⟩

theorem encode : Statement .encode := ⟨rfl, rfl, by decide⟩

theorem decode : Statement .decode := ⟨rfl, rfl, by decide⟩

theorem wrap : Statement .wrap := ⟨rfl, rfl, by decide⟩

theorem unwrap : Statement .unwrap := ⟨rfl, rfl, by decide⟩

theorem frame (rel dip : Bool) (kind : Kind) (seq : SeqNum) : Statement (.frame rel dip kind seq) := ⟨rfl, rfl, by decide⟩

theorem frames (rel dip : Bool) (kind : Kind) : Statement (.frames rel dip kind) := ⟨rfl, rfl, by decide⟩

theorem parse : Statement .parse := ⟨rfl, rfl, by decide⟩

theorem mkplInit : Statement .mkplInit := ⟨rfl, rfl, by decide⟩

theorem mkplStart : Statement .mkplStart := ⟨rfl, rfl, by decide⟩

theorem mkplData : Statement .mkplData := ⟨rfl, rfl, by decide⟩

theorem mkplStopData : Statement .mkplStopData := ⟨rfl, rfl, by decide⟩

theorem mkplValidate : Statement .mkplValidate := ⟨rfl, rfl, by decide⟩

theorem mkplActivate : Statement .mkplActivate := ⟨rfl, rfl, by decide⟩

theorem mkplPing : Statement .mkplPing := ⟨rfl, rfl, by decide⟩

theorem classify : Statement .classify := ⟨rfl, rfl, by decide⟩

theorem push (byte : Byte) : Statement (.push byte) := ⟨rfl, rfl, by decide⟩

theorem pop : Statement .pop := ⟨rfl, rfl, by decide⟩

theorem rd (reg : Reg) : Statement (.rd reg) := by cases reg <;> exact ⟨rfl, rfl, by decide⟩

theorem wr (reg : Reg) (v : Word) : Statement (.wr reg v) := by cases reg <;> exact ⟨rfl, rfl, by decide⟩

theorem reset : Statement .reset := trivial

end Sys2Proof.Laws.EncodesInWindow
end

