-- ==== Sys2Proof/Tests/Slice0.lean ====
section
/-!
SUPPORT. The model's own tests. Expected values are the spec's: 95_test_vectors.md (the section is named
at each group), 30_encoding.md rules R94 and R115. After them, for each statement that has hypotheses, a
concrete state and operands that meet them.
-/

open Sys2Proof Sys2Proof.Machine Sys2Proof.Claims

namespace Sys2Proof.Tests

/-! ## Helpers -/

/-- The reset state with these buffers. -/
def bufs (i o : Bytes) : State := { State.reset with ibuf := i, obuf := o }

/-- The reset state with this CRC and this input. -/
def withCrc (c : Crc) (i : Bytes) : State := { State.reset with crc := c, ibuf := i }

/-- The reset state with a fault latched. -/
def faultedWith (e : BitVec 4) : State := { State.reset with err := e }

/-- `n` copies of a byte. -/
def fill (n : Nat) (b : Byte) : Bytes := List.replicate n b

theorem fill_length (n : Nat) (b : Byte) : (fill n b).length = n := List.length_replicate

/-- `f` of the next state; none where there is none. -/
def after {α : Type} (f : State → α) : Outcome → Option α
  | .next s => some (f s)
  | _ => none

/-- The reason of a refusal. -/
def refusal : Outcome → Option Refusal
  | .refused r => some r
  | _ => none

/-! ## Ill-formed terms -/

theorem test_rd_dout_ill_formed : Instr.wellFormed (.rd .dout) = false := by decide
theorem test_wr_cmd_ill_formed : Instr.wellFormed (.wr .cmd 0) = false := by decide
theorem test_wr_din_ill_formed : Instr.wellFormed (.wr .din 0) = false := by decide
theorem test_wr_dout_well_formed : Instr.wellFormed (.wr .dout 0) = true := by decide
theorem test_rd_dout_refused :
    refusal (exec (.rd .dout) State.reset) = some .accessOfAnotherInstruction := by decide
theorem test_wr_cmd_refused :
    refusal (exec (.wr .cmd 0) State.reset) = some .accessOfAnotherInstruction := by decide

/-! ## Decoding: one word for every constructor, from R94 and R61 -/

theorem test_decode_control :
    decode (.regWrite 0x00 4 0x00000000) = .ok .nop ∧
    decode (.regWrite 0x00 4 0x00010000) = .ok .clrErr ∧
    decode (.regWrite 0x00 4 0x00020001) = .ok (.flush true false) ∧
    decode (.regWrite 0x00 4 0x00020002) = .ok (.flush false true) ∧
    decode (.regWrite 0x00 4 0x00030000) = .ok .seqClr := by decide

theorem test_decode_checksum :
    decode (.regWrite 0x00 4 0x00100000) = .ok .crcInit ∧
    decode (.regWrite 0x00 4 0x001100A5) = .ok (.crcByte 0xA5) ∧
    decode (.regWrite 0x00 4 0x00120000) = .ok .crcBuf ∧
    decode (.regWrite 0x00 4 0x00130000) = .ok .crc16 ∧
    decode (.regWrite 0x00 4 0x00140000) = .ok .crcPut := by decide

theorem test_decode_codec :
    decode (.regWrite 0x00 4 0x00200000) = .ok .encode ∧
    decode (.regWrite 0x00 4 0x00210000) = .ok .decode ∧
    decode (.regWrite 0x00 4 0x00220000) = .ok .wrap ∧
    decode (.regWrite 0x00 4 0x00230000) = .ok .unwrap := by decide

/-- Each operand field at a value of its own: `kind = 11`, `rel = 1`, `dip = 0`, `seq = 5`. -/
theorem test_decode_framer :
    decode (.regWrite 0x00 4 0x00300B85) = .ok (.frame true false 11 5) ∧
    decode (.regWrite 0x00 4 0x00310740) = .ok (.frames false true 7) ∧
    decode (.regWrite 0x00 4 0x00320000) = .ok .parse := by decide

theorem test_decode_marshaller :
    decode (.regWrite 0x00 4 0x00400000) = .ok .mkplInit ∧
    decode (.regWrite 0x00 4 0x00400001) = .ok .mkplStart ∧
    decode (.regWrite 0x00 4 0x00400002) = .ok .mkplData ∧
    decode (.regWrite 0x00 4 0x00400003) = .ok .mkplStopData ∧
    decode (.regWrite 0x00 4 0x00400004) = .ok .mkplValidate ∧
    decode (.regWrite 0x00 4 0x00400005) = .ok .mkplActivate ∧
    decode (.regWrite 0x00 4 0x00400006) = .ok .mkplPing ∧
    decode (.regWrite 0x00 4 0x00410000) = .ok .classify := by decide

theorem test_decode_ports :
    decode (.regWrite 0x08 4 0x000001C0) = .ok (.push 0xC0) ∧
    decode (.regRead 0x0C 4) = .ok .pop ∧
    decode (.regRead 0x18 4) = .ok (.rd .hdr) ∧
    decode (.regRead 0x2C 4) = .ok (.rd .reserved2C) ∧
    decode (.regWrite 0x3C 4 0x00001000) = .ok (.wr .appsize 0x00001000) ∧
    decode .reset = .ok .reset := by decide

/-- The illegal words of 95_test_vectors.md section 2.7. -/
theorem test_decode_illegal :
    ([0x01000000#32, 0x80000000, 0x00040000, 0x00050000, 0x00150000, 0x00240000, 0x00330000, 0x00420000,
      0x00FF0000, 0x00000001, 0x00010001, 0x00020004, 0x00110100, 0x00300008, 0x00301000, 0x00310001, 0x00311000,
      0x00400007, 0x00400008, 0x00410001].map decodeCommand).all Option.isNone = true := by decide +kernel

theorem test_decode_refused :
    decode (.regWrite 0x00 2 0) = .error .notAlignedWord ∧
    decode (.regRead 0x06 4) = .error .notAlignedWord ∧
    decode (.regRead 0x40 4) = .error .outsideWindow := by decide

/-- The opcode table's numbering of a command row and of the two port rows that have an offset. -/
theorem test_decode_table_word :
    decodeTableWord 32 0x00300EC1 = some (.frame true true 14 1) ∧
    decodeTableWord 8 0x08 = some (.push 0) ∧ decodeTableWord 8 0x0C = some .pop := by decide

theorem test_fetch_word_runs_first :
    after (fun s => s.crc) (step ({ State.reset with crc := 0x1234 }.withFetchWord 32 0x00100000)) =
      some 0xFFFF := by decide

/-! ## Assembler (R115, R116) -/

theorem test_assembler_examples :
    asmLine "FRAME rel=1, dip=1, kind=14, seq=1" = some (.one (.frame true true 14 1)) ∧
    asmLine "FRAMES rel=1, dip=1, kind=14" = some (.one (.frames true true 14)) ∧
    asmLine "CRC_BYTE 0x31" = some (.one (.crcByte 0x31)) ∧
    asmLine "FLUSH IO" = some (.one (.flush true true)) ∧
    asmLine "MKPL DATA" = some (.one .mkplData) := by decide +kernel

theorem test_assembler_pseudo :
    asmLine "PUSHS C0 DB ; payload" = some (.pushs [0xC0, 0xDB]) ∧
    asmLine "LOADSTART 4, 0, 0, 4096" = some (.loadStart 4 0 0 4096) ∧
    asmLine "RD DOUT" = some (.access (.regRead 0x0C 4)) ∧
    asmLine "WR CRC, 0xABCD1234" = some (.access (.regWrite 0x10 4 0xABCD1234)) ∧
    asmLine "WR CMD, 0x00050000" = some (.access (.regWrite 0x00 4 0x00050000)) ∧
    asmLine "WR DIN, 0x1C0" = some (.access (.regWrite 0x08 4 0x000001C0)) ∧
    asmLine "CRC_BYTE 0x310" = none := by decide +kernel

/-! ## Checksum (95_test_vectors.md section 2.1) -/

theorem test_crc_step : crcStep 0xFFFF 0x31 = 0xC782 ∧ crcStep 0x8000 0x00 = 0x9188 := by decide +kernel
theorem test_crc16_check_value :
    crc16 csf [0x31, 0x32, 0x33, 0x34, 0x35, 0x36, 0x37, 0x38, 0x39] = 0x29B1 := by decide +kernel
theorem test_crc_init : after State.crc (exec .crcInit (withCrc 0x1234 [])) = some 0xFFFF := by decide
theorem test_crc_byte : after State.crc (exec (.crcByte 0x32) (withCrc 0xC782 [])) = some 0x3DBA := by decide
theorem test_crc_buf :
    after (fun s => (s.crc, s.ibuf)) (exec .crcBuf (withCrc 0x5349 [0x35, 0x36, 0x37, 0x38, 0x39])) =
      some (0x29B1, []) := by decide +kernel
theorem test_crc16 :
    after (fun s => (s.crc, s.ibuf)) (exec .crc16 (withCrc 0x1234 [0x41])) = some (0xB915, []) := by decide
theorem test_crc_put :
    after (fun s => (s.crc, s.obuf)) (exec .crcPut (withCrc 0x29B1 [])) = some (0x29B1, [0xB1, 0x29]) := by
  decide

/-! ## Codec (section 2.2) -/

theorem test_encode :
    after (fun s => (s.obuf, s.ibuf)) (exec .encode (bufs [0x01, 0xC0, 0x02, 0xDB, 0x03] [])) =
      some ([0x01, 0xDB, 0xDC, 0x02, 0xDB, 0xDD, 0x03], []) := by decide
theorem test_decode :
    after (fun s => (s.obuf, s.err)) (exec .decode (bufs [0xDB, 0xDC, 0xDB, 0xDD, 0xDC, 0xDD] [0x77])) =
      some ([0x77, 0xC0, 0xDB, 0xDC, 0xDD], 0) := by decide
theorem test_decode_bad :
    after (fun s => (s.obuf, s.ibuf, s.err)) (exec .decode (bufs [0x01, 0xDB] [0x77])) =
      some ([0x77], [], 5) := by decide
theorem test_wrap :
    after State.obuf (exec .wrap (bufs [0xC0, 0xDB] [])) = some [0xC0, 0xDB, 0xDC, 0xDB, 0xDD, 0xC0] := by decide
theorem test_unwrap :
    after State.obuf (exec .unwrap (bufs [0x55, 0xC0, 0x08, 0x0E, 0x00, 0xEA, 0xC0, 0x66] [])) =
      some [0x08, 0x0E, 0x00, 0xEA] := by decide
theorem test_unwrap_faults :
    after State.err (exec .unwrap (bufs [0xC0] [])) = some 6 ∧
    after State.err (exec .unwrap (bufs [0xC0, 0xC0, 0xC0] [])) = some 5 := by decide

/-! ## Framer (sections 2.3 to 2.5) -/

theorem test_mkhdr :
    mkhdr true true 0 3 14 20 = [0xC3, 0x4E, 0x01, 0xEE] ∧
    mkhdr true true 7 7 14 4095 = [0xFF, 0xFE, 0xFF, 0x04] := by decide
theorem test_frame :
    after (fun s => (s.obuf, s.crc, s.seq)) (exec (.frame true true 14 0) (bufs [0x02] [])) =
      some ([0xC0, 0xDB, 0xDC, 0x1E, 0x00, 0x22, 0x02, 0x8F, 0xDB, 0xDD, 0xC0], 0xDB8F, 0) := by decide +kernel
theorem test_frames :
    after (fun s => (s.obuf, s.crc, s.seq)) (exec (.frames true true 14) (bufs [0x02, 0x00, 0x00, 0x00] [])) =
      some ([0xC0, 0xC1, 0x4E, 0x00, 0xF1, 0x02, 0x00, 0x00, 0x00, 0xB7, 0xEA, 0xC0], 0xEAB7, 1) := by decide +kernel
theorem test_frames_wraps :
    after (fun s => (s.obuf, s.seq)) (exec (.frames true true 14) { State.reset with seq := 7 }) =
      some ([0xC0, 0xDB, 0xDC, 0x0E, 0x00, 0x32, 0x74, 0x3A, 0xC0], 0) := by decide +kernel
theorem test_parse :
    after (fun s => (s.err, s.hdr, s.dlen, s.ibuf))
      (exec .parse (bufs [0xC0, 0x08, 0x0E, 0x00, 0xEA, 0x01, 0x02, 0x03, 0xC0] [])) =
      some (0, 0x03000E08, 7, []) := by decide
theorem test_parse_bad_checksum :
    after (fun s => (s.err, s.hdr, s.dlen, s.ibuf)) (exec .parse (bufs [0xC0, 0x08, 0x0E, 0x00, 0xE9, 0xC0] [])) =
      some (8, 0x00000E08, 4, []) := by decide

/-! ## Marshaller (section 2.6) -/

theorem test_mkpl_init :
    after State.ibuf (exec .mkplInit (bufs [0xAA, 0xBB] [])) =
      some [0x01, 0x00, 0x00, 0x00, 0xAA, 0xBB, 0x00, 0x00] := by decide
theorem test_mkpl_start :
    after State.ibuf (exec .mkplStart { State.reset with mode := 4, appsize := 4096 }) =
      some [0x03, 0x00, 0x00, 0x00, 0x04, 0x00, 0x00, 0x00, 0x00, 0x00, 0x00, 0x00, 0x00, 0x00, 0x00, 0x00,
        0x00, 0x10, 0x00, 0x00] := by decide
theorem test_mkpl_data :
    after State.ibuf (exec .mkplData (bufs [0xDE, 0xAD] [])) = some [0x04, 0x00, 0x00, 0x00, 0xDE, 0xAD] := by
  decide
theorem test_mkpl_stopdata :
    after State.ibuf (exec .mkplStopData State.reset) = some [0x05, 0x00, 0x00, 0x00] := by decide
theorem test_mkpl_ping :
    after State.ibuf (exec .mkplPing State.reset) = some [0x02, 0x00, 0x00, 0x00] ∧
    after (fun s => (s.ibuf, s.err)) (exec .mkplPing (bufs [0x00] [])) = some ([], 9) := by decide
theorem test_mkpl_validate_body : after State.err (exec .mkplValidate (bufs [0x00] [])) = some 9 := by decide
theorem test_mkpl_activate_body : after State.err (exec .mkplActivate (bufs [0x00] [])) = some 9 := by decide
theorem test_classify :
    after (fun s => (s.ptype, s.ibuf)) (exec .classify (bufs [0x04, 0x00, 0x00, 0x00, 0xDE] [])) =
      some (2, [0x04, 0x00, 0x00, 0x00, 0xDE]) ∧
    after State.ptype (exec .classify (bufs [0x04, 0x00, 0x00] [])) = some 15 := by decide

/-! ## Control and ports (section 2.7) -/

theorem test_clr_err : after State.err (exec .clrErr (faultedWith 5)) = some 0 := by decide
theorem test_flush :
    after (fun s => (s.ibuf, s.obuf)) (exec (.flush true false) (bufs [0x01] [0x02])) = some ([], [0x02]) ∧
    after (fun s => (s.ibuf, s.obuf)) (exec (.flush false true) (bufs [0x01] [0x02])) = some ([0x01], []) := by
  decide
theorem test_seq_clr : after State.seq (exec .seqClr { State.reset with seq := 5 }) = some 0 := by decide
theorem test_push :
    after State.ibuf (exec (.push 0xC0) (bufs [0x01] [])) = some [0x01, 0xC0] ∧
    after State.ibuf (exec (.push 0xC0) (faultedWith 1)) = some [] := by decide
theorem test_pop :
    after (fun s => (s.returned, s.obuf)) (exec .pop (bufs [] [0xC0, 0xC1])) = some ([0x000001C0], [0xC1]) ∧
    after (fun s => (s.returned, s.obuf)) (exec .pop State.reset) = some ([0x00000000], []) := by decide
theorem test_rd_reset_values :
    after State.returned (exec (.rd .status) State.reset) = some [0x00000050] ∧
    after State.returned (exec (.rd .ptype) State.reset) = some [0x0000000F] := by decide
theorem test_wr :
    after State.crc (exec (.wr .crc 0xABCD1234) State.reset) = some 0x1234 ∧
    after (fun s => s) (exec (.wr .seq 5) State.reset) = some State.reset := by decide
theorem test_reset : after (fun s => s) (exec .reset (faultedWith 3)) = some State.reset := by decide
theorem test_nop_faulted : after (fun s => s) (exec .nop (faultedWith 3)) = some (faultedWith 3) := by decide

/-- Step 6 of the fault gating sequence: not exactly `CLR_ERR`, ignored. -/
theorem test_gating : after (fun s => s) (serve (cmdWrite 0x00010001) (faultedWith 1)) = some (faultedWith 1) := by
  decide

/-- Step 2 of the same sequence, as a line that writes `CMD`: an illegal word faults. -/
theorem test_wr_cmd_line_faults :
    after (fun s => (s.err, s.ibuf)) (runActions [.access (.regWrite 0x00 4 0x00050000)] (bufs [0x01] [])) =
      some (1, []) := by decide

/-- The words that program P1 pops. -/
theorem test_program_p1 :
    after State.returned (runActions [.one .mkplPing, .one (.frames true true 14), .popAll] State.reset) =
      some [0x1C0, 0x1C1, 0x14E, 0x100, 0x1F1, 0x102, 0x100, 0x100, 0x100, 0x1B7, 0x1EA, 0x1C0, 0x000] := by
  decide +kernel

/-! ## Witnesses: the hypotheses of the statements can be met

Each theorem is named after the statement of the certificate whose hypotheses it meets. -/

theorem test_witness_StepRunsTheDecodedInstruction :
    (afterReset [.regWrite 0x00 4 0x00110031]).pending = .regWrite 0x00 4 0x00110031 :: [] ∧
    decode (.regWrite 0x00 4 0x00110031) = .ok (.crcByte 0x31) ∧ State.reset.pending = [] := by decide

/-- One access for each clause, at the edges: the last word of the window is at 0x3C. -/
theorem test_witness_OtherAccessesAreRefused :
    refusal (serve (.regWrite 0x10 2 0) State.reset) = some .notAlignedWord ∧
    refusal (serve (.regRead 0x3D 4) State.reset) = some .notAlignedWord ∧
    refusal (serve (.regRead 0x40 4) State.reset) = some .outsideWindow ∧
    refusal (serve (.regRead 0x3C 4) State.reset) = none := by decide

theorem test_witness_IllegalWordsAreTheListedOnesAndFault :
    State.reset.err = 0 ∧ Illegal 0x00400007 ∧ (faultedWith 9).err ≠ 0 ∧ (0x00000000#32) ≠ 0x00010000 :=
  ⟨by decide, .inr (.inr (.inr (by decide))), by decide, by decide⟩

theorem test_witness_DecodeOfEncodeIsTheInstruction : Instr.wellFormed (.wr .appsize 0xFFFFFFFF) = true := by decide

theorem test_witness_CommandWordOfDecodedWordIsTheWord :
    decodeCommand 0x00300FC7 = some (.frame true true 15 7) := by decide

theorem test_witness_IllFormedTermsAreRefused : Instr.wellFormed (.rd .dout) = false := by decide

theorem test_witness_WellFormedInstructionsAlwaysComplete : Instr.wellFormed (.rd .appsize) = true := by decide

/-- For every `OnlyWord w i`: a word with the same `OP` that is not `w`; and `ERR = 0`. -/
theorem test_witness_OnlyWord :
    [0x00000000#32, 0x00010000, 0x00030000, 0x00100000, 0x00120000, 0x00130000, 0x00140000, 0x00200000, 0x00210000,
      0x00220000, 0x00230000, 0x00320000, 0x00410000].all
        (fun w => opField (w ||| 0x80008000) == opField w && w ||| 0x80008000 != w) = true ∧
    State.reset.err = 0 := by decide

theorem test_witness_CrcInitLoadsInitialValue : (withCrc 0x1234 []).err = 0 := by decide

theorem test_witness_CrcByteFoldsOneByte :
    opField 0x00110100 = 0x11 ∧ (0x00110100#32).extractLsb' 8 8 ≠ 0 ∧ opField 0x01110000 = 0x11 ∧
    (0x01110000#32).extractLsb' 24 8 ≠ 0 ∧ State.reset.err = 0 := by decide

theorem test_witness_CrcBufFoldsInput : (withCrc 0x5349 [0x35]).err = 0 := by decide

theorem test_witness_Crc16ReplacesCrc : (withCrc 0x1234 [0x41]).err = 0 := by decide

/-- Both sides of the test on room, where they meet: 8202 and 8203 bytes in `OBUF`. -/
theorem test_witness_CrcPutAppendsLowByteFirst :
    (bufs [] (fill 8202 0)).err = 0 ∧ ¬ (bufs [] (fill 8202 0)).obuf.length + 2 > 8204 ∧
    (bufs [] (fill 8203 0)).err = 0 ∧ (bufs [] (fill 8203 0)).obuf.length + 2 > 8204 :=
  ⟨rfl, by simp [bufs, fill_length], rfl, by simp [bufs, fill_length]⟩

/-- The hypotheses of both clauses, the first at the capacity of `IBUF`. -/
theorem test_witness_StreamedCrcEqualsOneShot :
    State.reset.err = 0 ∧ State.reset.ibuf = [] ∧
    (fill 8203 0x31).length + [0x32#8].length ≤ 8204 := ⟨rfl, rfl, by simp [fill_length]⟩

theorem test_witness_StuffingRoundTripLaws :
    csf.Legal ∧ unstuff csf [0xDB, 0xDC] = some [0xC0] ∧ unstuff csf [0x01] ≠ none ∧
    ¬ ∃ u, ([0x01] : Bytes) = u ++ [csf.esc] ∧ unstuff csf u ≠ none := by
  refine ⟨csf_legal, by decide, by decide, ?_⟩
  rintro ⟨u, h, -⟩
  have := congrArg List.getLast? h
  simp at this

theorem test_witness_SpanLiesBetweenFirstAndLastBoundary :
    csf.Legal ∧ span csf [0xC0, 0x01, 0xC0, 0xC0] = some [0x01, 0xC0] ∧
    3 ≤ ([0xC0, 0x01, 0xC0, 0xC0] : Bytes).count csf.boundary := ⟨csf_legal, by decide, by decide⟩

theorem test_witness_EncodeStuffsInput : (bufs [0xC0] []).err = 0 := by decide

theorem test_witness_DecodeUnstuffsInput :
    (bufs [0xDB] []).err = 0 ∧ unstuff csf (bufs [0xDB] []).ibuf = none ∧
    unstuff csf (bufs [0xDB, 0xDD] []).ibuf = some [0xDB] := by decide

theorem test_witness_WrapDelimitsInput : (bufs [] []).err = 0 := by decide

/-- One boundary byte, then two: an accepted span and one that is not. -/
theorem test_witness_UnwrapDeliversTheSpan :
    (bufs [0xC0] []).ibuf.count 0xC0 < 2 ∧
    (bufs [0x55, 0xC0, 0x08, 0xC0, 0x66] []).ibuf = [0x55] ++ [0xC0] ++ [0x08] ++ [0xC0] ++ [0x66] ∧
    (0xC0#8) ∉ ([0x55] : Bytes) ∧ (0xC0#8) ∉ ([0x66] : Bytes) ∧ unstuff csf [0x08] = some [0x08] ∧
    (bufs [0xC0, 0xDB, 0xC0] []).ibuf = [] ++ [0xC0] ++ [0xDB] ++ [0xC0] ++ [] ∧ unstuff csf [0xDB] = none := by
  decide

theorem test_witness_HeaderLayoutAndChecksum :
    mkhdr false false 0 0 0 0 = [0x00, 0x00, 0x00, 0x00] ∧ ((0#8).toNat + (0#8).toNat + (0#8).toNat) % 256 = 0 := by
  decide

theorem test_witness_FrameShapeAndLength :
    csf.Legal ∧ (fill 4095 0xC0).length ≤ 4095 := ⟨csf_legal, by simp [fill_length]⟩

/-- A reserved bit of each place, and the two sides of the length test: 4095 and 4096 bytes. -/
theorem test_witness_FrameCommandAppendsFrame :
    opField 0x00300008 = 0x30 ∧ (0x00300008#32).extractLsb' 3 3 ≠ 0 ∧ opField 0x00301000 = 0x30 ∧
    (0x00301000#32).extractLsb' 12 4 ≠ 0 ∧ opField 0x01300000 = 0x30 ∧ (0x01300000#32).extractLsb' 24 8 ≠ 0 ∧
    (bufs (fill 4095 0) []).err = 0 ∧ ¬ (bufs (fill 4095 0) []).ibuf.length > 4095 ∧
    (bufs (fill 4096 0) []).ibuf.length > 4095 :=
  ⟨by decide, by decide, by decide, by decide, by decide, by decide, rfl, by simp [bufs, fill_length], by simp [bufs, fill_length]⟩

theorem test_witness_FramesCommandAdvancesSeq :
    opField 0x00310001 = 0x31 ∧ (0x00310001#32).extractLsb' 0 6 ≠ 0 ∧ opField 0x00311000 = 0x31 ∧
    (0x00311000#32).extractLsb' 12 4 ≠ 0 ∧ opField 0x01310000 = 0x31 ∧ (0x01310000#32).extractLsb' 24 8 ≠ 0 ∧
    ({ State.reset with seq := 7 } : State).err = 0 := by decide

theorem test_witness_LegalFrameFitsEmptyOutput :
    (bufs (fill 4095 0xC0) []).err = 0 ∧ (bufs (fill 4095 0xC0) []).obuf = [] ∧
    (bufs (fill 4095 0xC0) []).ibuf.length ≤ 4095 := ⟨rfl, rfl, by simp [bufs, fill_length]⟩

/-- A buffer for each row of the table of R177. -/
theorem test_witness_ParseOutcomes :
    (bufs [0xC0] []).err = 0 ∧ (bufs [0xC0] []).ibuf.count 0xC0 < 2 ∧
    unstuff csf [0xDB] = none ∧ unstuff csf [] = some [] ∧
    unstuff csf [0x08, 0x0E, 0x00] = some [0x08, 0x0E, 0x00] ∧
    unstuff csf [0x08, 0x0E, 0x00, 0xE9] = some [0x08, 0x0E, 0x00, 0xE9] ∧ (0x08#8) + 0x0E + 0x00 + 0xE9 ≠ 0 ∧
    unstuff csf [0x08, 0x0E, 0x00, 0xEA] = some [0x08, 0x0E, 0x00, 0xEA] ∧ (0x08#8) + 0x0E + 0x00 + 0xEA = 0 ∧
    ∀ p ∈ ([[0xDB], [], [0x08, 0x0E, 0x00], [0x08, 0x0E, 0x00, 0xE9], [0x08, 0x0E, 0x00, 0xEA]] : List Bytes),
      (bufs ([0xC0] ++ p ++ [0xC0]) []).ibuf = [] ++ [0xC0] ++ p ++ [0xC0] ++ [] ∧ (0xC0#8) ∉ ([] : Bytes) := by
  decide

theorem test_witness_ParseReadsFourBytesOnly :
    (bufs [0xC0, 0x08, 0x0E, 0x00, 0xEA, 0xC0] []).err = 0 ∧
    span csf (bufs [0xC0, 0x08, 0x0E, 0x00, 0xEA, 0xC0] []).ibuf = some [0x08, 0x0E, 0x00, 0xEA] ∧
    span csf (bufs [0xC0, 0x08, 0x0E, 0x00, 0xEA, 0x01, 0xC0] []).ibuf = some [0x08, 0x0E, 0x00, 0xEA, 0x01] ∧
    unstuff csf [0x08, 0x0E, 0x00, 0xEA] = some [0x08, 0x0E, 0x00, 0xEA] ∧
    unstuff csf [0x08, 0x0E, 0x00, 0xEA, 0x01] = some [0x08, 0x0E, 0x00, 0xEA, 0x01] ∧
    after State.err (exec .parse (bufs [0xC0, 0x08, 0x0E, 0x00, 0xEA, 0xC0] [])) = some 0 ∧
    after State.err (exec .parse (bufs [0xC0, 0x08, 0x0E, 0x00, 0xEA, 0x01, 0xC0] [])) = some 0 := by decide

theorem test_witness_HeaderChecksumInvariant :
    csf.Legal ∧ ([] : Bytes).length ≤ 4095 ∧ (bufs [0xC0, 0x08, 0x0E, 0x00, 0xE9, 0xC0] []).err = 0 ∧
    (span csf (bufs [0xC0, 0x08, 0x0E, 0x00, 0xE9, 0xC0] []).ibuf).bind (unstuff csf) =
      some [0x08, 0x0E, 0x00, 0xE9] ∧
    ((0x08#8).toNat + (0x0E#8).toNat + (0x00#8).toNat + (0xE9#8).toNat) % 256 ≠ 0 :=
  ⟨csf_legal, by decide, by decide, by decide, by decide⟩

theorem test_witness_ParseOfFrameReadsBack :
    csf.Legal ∧ (fill 4095 0xDB).length ≤ 4095 := ⟨csf_legal, by simp [fill_length]⟩

theorem test_witness_FramePopPushParseRoundTrip :
    (bufs (fill 4095 0xDB) []).err = 0 ∧ (bufs (fill 4095 0xDB) []).obuf = [] ∧
    (bufs (fill 4095 0xDB) []).ibuf.length ≤ 4095 := ⟨rfl, rfl, by simp [bufs, fill_length]⟩

theorem test_witness_FrameEqualsPipeline :
    (bufs [] [0x77]).err = 0 ∧ (bufs [] [0x77]).ibuf = [] ∧ ([0xC0, 0xDB] : Bytes).length ≤ 4095 ∧
    (bufs [] [0x77]).obuf.length + (wire true true 14 3 [0xC0, 0xDB]).length ≤ 8204 := by decide +kernel

/-- Both sides of the test on room: 8198 and 8199 bytes. -/
theorem test_witness_MkplInitPrefixesAndPads :
    (bufs (fill 8198 0) []).err = 0 ∧ ¬ (bufs (fill 8198 0) []).ibuf.length + 6 > 8204 ∧
    (bufs (fill 8199 0) []).ibuf.length + 6 > 8204 := ⟨rfl, by simp [bufs, fill_length], by simp [bufs, fill_length]⟩

theorem test_witness_MkplStartLaysOutOperands :
    State.reset.err = 0 ∧ State.reset.ibuf = [] ∧ (bufs [0x00] []).err = 0 ∧ (bufs [0x00] []).ibuf ≠ [] := by decide

/-- Both sides of the test on room: 8200 and 8201 bytes. -/
theorem test_witness_MkplDataPrefixesOpcode :
    (bufs (fill 8200 0) []).err = 0 ∧ ¬ (bufs (fill 8200 0) []).ibuf.length + 4 > 8204 ∧
    (bufs (fill 8201 0) []).ibuf.length + 4 > 8204 := ⟨rfl, by simp [bufs, fill_length], by simp [bufs, fill_length]⟩

theorem test_witness_MkplOpcodeOnlyPayloads :
    State.reset.err = 0 ∧ State.reset.ibuf = [] ∧ (bufs [0x00] []).err = 0 ∧ (bufs [0x00] []).ibuf ≠ [] := by decide

/-- Three bytes and four. -/
theorem test_witness_ClassifyFindsLeastCode :
    (bufs [0x04, 0x00, 0x00] []).err = 0 ∧ (bufs [0x04, 0x00, 0x00] []).ibuf.length < 4 ∧
    (bufs [0x04, 0x00, 0x00, 0x00] []).ibuf = 0x04 :: 0x00 :: 0x00 :: 0x00 :: [] := by decide

/-- The decided opcodes with 6 and 7 for the two OPEN ones. -/
theorem test_witness_ClassifyInvertsMarshalling :
    DistinctOpcodes { csf with opcValidate := 6, opcActivate := 7 } := by
  intro t u h
  cases t <;> cases u <;> first | rfl | exact absurd h (by decide)

theorem test_witness_ClrErrClearsTheLatch :
    opField 0x00010001 = 0x01 ∧ (0x00010001#32) ≠ 0x00010000 ∧ State.reset.err = 0 ∧ (faultedWith 5).err ≠ 0 := by
  decide

theorem test_witness_FlushEmptiesNamedBuffers :
    opField 0x00020004 = 0x02 ∧ (0x00020004#32).extractLsb' 2 14 ≠ 0 ∧ (0x01020000#32).extractLsb' 24 8 ≠ 0 ∧
    (bufs [0x01] [0x02]).err = 0 ∧ (faultedWith 1).err ≠ 0 := by decide

theorem test_witness_SeqClrRestartsTheCounter :
    ({ State.reset with seq := 5 } : State).err = 0 ∧ ({ State.reset with seq := 5 } : State).obuf = [] ∧
    ({ State.reset with seq := 5 } : State).ibuf.length ≤ 4095 := by decide

/-- A faulted state, and both sides of the test on room: 8203 and 8204 bytes. -/
theorem test_witness_PushAppendsOrOverflows :
    (faultedWith 1).err ≠ 0 ∧ (bufs (fill 8203 0) []).err = 0 ∧
    (bufs (fill 8203 0) []).ibuf.length ≠ 8204 ∧ (bufs (fill 8204 0) []).ibuf.length = 8204 :=
  ⟨by decide, rfl, by simp [bufs, fill_length], by simp [bufs, fill_length]⟩

theorem test_witness_PopRemovesFrontByte :
    State.reset.obuf = [] ∧ (bufs [] [0xC0]).obuf = 0xC0 :: [] := by decide

theorem test_witness_RdReturnsTheRegister :
    Reg.ocount ≠ .dout ∧ (bufs (fill 8204 0) (fill 8204 0)).ibuf.length ≤ 8204 ∧
    (bufs (fill 8204 0) (fill 8204 0)).obuf.length ≤ 8204 :=
  ⟨by decide, by simp [bufs, fill_length], by simp [bufs, fill_length]⟩

theorem test_witness_WrWritesTheWritableRegisters : Reg.dout ≠ .cmd ∧ Reg.dout ≠ .din := by decide

theorem test_witness_OnlyCmdAndDinWritesRaise :
    after State.err (serve (cmdWrite 0x00050000) State.reset) = some 1 ∧ (1#4) ≠ State.reset.err ∧ (1#4) ≠ 0 := by
  decide

/-- A command other than `PARSE`, and `PARSE`. -/
theorem test_witness_FaultsHaveNoPartialEffect :
    State.reset.err = 0 ∧ after State.err (serve (cmdWrite 0x00230000) State.reset) = some 6 ∧
    decode (cmdWrite 0x00230000) ≠ .ok .parse ∧ after State.err (serve (cmdWrite 0x00320000) State.reset) = some 6 ∧
    decode (cmdWrite 0x00320000) = .ok .parse := by decide

theorem test_witness_FaultedConditionIgnoresWork :
    (faultedWith 9).err ≠ 0 ∧ (0x00220000#32) ≠ 0x00010000 ∧ Reg.status ≠ .dout ∧ Reg.crc ≠ .status ∧
    (after State.err (exec .pop { faultedWith 9 with err := 0 })).isSome = true ∧
    (after State.err (exec (.wr .crc 1) { faultedWith 9 with err := 0 })).isSome = true := by decide

theorem test_witness_OnlyClearOrResetLeavesFault :
    (faultedWith 9).err ≠ 0 ∧ after State.err (serve (.regRead 0x0C 4) (faultedWith 9)) = some 9 := by decide

/-- An access that changes each piece of state the statement names. -/
theorem test_witness_OnlyListedOperationsWriteState :
    after State.crc (serve (cmdWrite 0x00110031) State.reset) = some 0xC782 ∧
    after (fun s => (s.seq, s.obuf.length)) (serve (cmdWrite 0x00310EC0) State.reset) = some (1, 8) ∧
    after State.hdr (serve (cmdWrite 0x00320000) { State.reset with hdr := 1 }) = some 0 ∧
    after State.ptype (serve (cmdWrite 0x00410000) (bufs [0x03, 0x00, 0x00, 0x00] [])) = some 1 ∧
    after State.mode (serve (.regWrite 0x30 4 4) State.reset) = some 4 := by decide +kernel

theorem test_witness_HostSideDoesNotInfluenceEngine :
    after State.returned (serve (.regRead 0x10 4) State.reset) = some [0x0000FFFF] := by decide

theorem test_witness_EveryStepKeepsInvariants :
    State.reset.Inv ∧ after State.err (step { State.reset with pending := [cmdWrite 0x00050000] }) = some 1 := by
  refine ⟨⟨?_, ?_, ?_, ?_, ?_, ?_⟩, ?_⟩ <;> decide

theorem test_witness_ReachableStatesMeetInvariants : Reachable (afterReset [cmdWrite 0x00050000]) := .start _

end Sys2Proof.Tests
end

section
/-!
The invariants of 10_state.md rule R37 and the reset values of rule R38: what each operation of the
state keeps, then each instruction, then a step, then every run from reset.
-/

open Sys2Proof.Claims

namespace Sys2Proof.Machine

/-! ## Reset (R38, R330) -/

theorem exec_reset (s : State) :
    exec .reset s = .next { State.reset with pending := s.pending, returned := s.returned } := rfl

/-- The host's side is no part of the engine's reset values. -/
theorem atReset_withHostSide (q : List Access) (ws : List Word) :
    AtReset { State.reset with pending := q, returned := ws } :=
  ⟨rfl, rfl, rfl, rfl, rfl, rfl, rfl, rfl, rfl, rfl, rfl, rfl⟩

/-- Settles O50: the reset action decodes to `exec .reset`, and the record that gives has the reset
values whatever the host's side of it is. -/
theorem resetSetsEveryRegister : Obligations.ResetSetsEveryRegister :=
  ⟨fun s => ⟨_, (serve_ok s rfl).trans (exec_reset s), exec_reset s, atReset_withHostSide s.pending s.returned⟩,
    atReset_withHostSide [] []⟩

/-! ## The invariants and the state's operations -/

section
variable {s t : State}

/-- The invariants speak of six fields only. -/
theorem State.Inv.of_fields (hs : s.Inv) (hibuf : t.ibuf = s.ibuf) (hobuf : t.obuf = s.obuf)
    (herr : t.err = s.err) (hhdr : t.hdr = s.hdr) (hdlen : t.dlen = s.dlen)
    (hptype : t.ptype = s.ptype) : t.Inv where
  ibuf_fits := hibuf ▸ hs.ibuf_fits
  obuf_fits := hobuf ▸ hs.obuf_fits
  faulted_empties := by rw [herr, hibuf]; exact hs.faulted_empties
  valid_means_header := by rw [hhdr, hdlen]; exact hs.valid_means_header
  err_is_code := herr ▸ hs.err_is_code
  ptype_is_code := hptype ▸ hs.ptype_is_code

theorem inv_reset : State.reset.Inv where
  ibuf_fits := by decide
  obuf_fits := by decide
  faulted_empties _ := rfl
  valid_means_header h := absurd h (by decide)
  err_is_code := by decide
  ptype_is_code := .inr rfl

theorem inv_raise (f : Cause) (hs : s.Inv) : (raise f s).Inv :=
  { hs with
    ibuf_fits := Nat.zero_le _
    faulted_empties := fun _ => rfl
    err_is_code := (code_range f).2 }

theorem inv_clearFault (hs : s.Inv) : (clearFault s).Inv :=
  { hs with
    faulted_empties := fun h => absurd rfl h
    err_is_code := Nat.zero_le _ }

theorem inv_consume (hs : s.Inv) : (consume s).Inv :=
  { hs with
    ibuf_fits := Nat.zero_le _
    faulted_empties := fun _ => rfl }

theorem inv_answer (v : Word) (hs : s.Inv) : (answer v s).Inv :=
  hs.of_fields rfl rfl rfl rfl rfl rfl

theorem inv_writeReg (r : Reg) (v : Word) (hs : s.Inv) : (writeReg r v s).Inv :=
  hs.of_fields (by simp) (by simp) (by simp) (by simp) (by simp) (by simp)

theorem inv_withObuf {y : Bytes} (hs : s.Inv) (hy : y.length ≤ csf.obufCap) :
    { s with obuf := y }.Inv :=
  { hs with obuf_fits := hy }

/-- Input may be put in `IBUF` while no fault is latched. -/
theorem inv_withIbuf {x : Bytes} (hs : s.Inv) (hclear : s.err = 0) (hx : x.length ≤ csf.ibufCap) :
    { s with ibuf := x }.Inv :=
  { hs with
    ibuf_fits := hx
    faulted_empties := fun h => absurd hclear h }

theorem inv_appendOut {y : Bytes} (hs : s.Inv) (hy : s.obuf.length + y.length ≤ csf.obufCap) :
    (appendOut y s).Inv :=
  inv_withObuf hs (List.length_append ▸ hy)

theorem inv_emit {y : Bytes} (hs : s.Inv) (h : emit y s = .ok t) : t.Inv := by
  rcases emit_cases y s with ⟨hfits, he⟩ | ⟨-, he⟩ <;> rw [he] at h <;> cases h
  exact inv_appendOut hs hfits

theorem inv_emitConsume {y : Bytes} (hs : s.Inv) (h : emitConsume y s = .ok t) : t.Inv := by
  rcases emitConsume_cases y s with ⟨hfits, he⟩ | ⟨-, he⟩ <;> rw [he] at h <;> cases h
  exact inv_consume (inv_appendOut hs hfits)

theorem inv_doFrame {q : SeqNum} {dip rel : Bool} {kind : Kind} (hs : s.Inv)
    (h : doFrame q dip rel kind s = .ok t) : t.Inv := by
  rcases doFrame_cases q dip rel kind s with ⟨-, he⟩ | ⟨-, -, he⟩ | ⟨-, hfits, he⟩ <;>
    rw [he] at h <;> cases h
  exact (inv_consume (inv_appendOut hs hfits)).of_fields rfl rfl rfl rfl rfl rfl

theorem inv_marshal {k : PacketType} (hs : s.Inv) (hclear : s.err = 0) (h : marshal k s = .ok t) :
    t.Inv := by
  rcases marshal_cases k s with ⟨-, -, he⟩ | ⟨-, -, he⟩ | ⟨-, hfits, he⟩ <;> rw [he] at h <;> cases h
  exact inv_withIbuf hs hclear hfits

theorem inv_gated (hs : s.Inv) (ht : t.Inv) : (gated s t).Inv := by
  unfold gated
  split
  · exact ht
  · exact hs

/-- The invariants survive a command whose body keeps them; its fault entry always does. -/
theorem inv_command {body : Except Cause State} (hs : s.Inv) (h : command s body = .next t)
    (hbody : s.err = 0 → body = .ok t → t.Inv) : t.Inv := by
  rcases command_cases h with ⟨-, rfl⟩ | ⟨hclear, hok⟩ | ⟨f, -, -, rfl⟩
  · exact hs
  · exact hbody hclear hok
  · exact inv_raise f hs

theorem inv_command_ok {u : State} (hs : s.Inv) (h : command s (.ok u) = .next t) (hu : u.Inv) :
    t.Inv :=
  inv_command hs h fun _ hok => Except.ok.inj hok ▸ hu

/-! ## What `PARSE` leaves in `HDR` and `DLEN` (R28, R177) -/

@[simp] theorem hdrValid_hdrWord (valid : Bool) (f : HeaderFields) : hdrValid (hdrWord valid f) = valid := by
  simp only [hdrValid, hdrWord, BitVec.getLsbD_append]
  simp

@[simp] theorem hdrHcsOk_hdrWord (valid : Bool) (f : HeaderFields) : hdrHcsOk (hdrWord valid f) = f.ok := by
  simp only [hdrHcsOk, hdrWord, BitVec.getLsbD_append]
  simp

theorem afterFirst_length_le {c : Params} {r x : Bytes} (h : afterFirst c r = some x) :
    x.length ≤ r.length := by
  induction r with
  | nil => cases h
  | cons b r ih =>
    rw [afterFirst] at h
    split at h
    · cases h; simp
    · exact Nat.le_succ_of_le (ih h)

theorem beforeLast_length_le {c : Params} {r x : Bytes} (h : beforeLast c r = some x) :
    x.length ≤ r.length := by
  induction r generalizing x with
  | nil => cases h
  | cons b r ih =>
    rw [beforeLast] at h
    split at h
    · next p hp => cases h; exact Nat.succ_le_succ (ih hp)
    · split at h <;> cases h
      exact Nat.zero_le _

theorem span_length_le {c : Params} {r p : Bytes} (h : span c r = some p) : p.length ≤ r.length := by
  obtain ⟨x, hx, hp⟩ := Option.bind_eq_some_iff.mp h
  exact (beforeLast_length_le hp).trans (afterFirst_length_le hx)

/-- A `parse` without a fault read a checksum-valid header, from at least four decoded bytes and no more
than it was given. -/
theorem parse_eq_of_fault_none {c : Params} {r : Bytes} (h : (parse c r).fault = none) :
    ∃ n f, parse c r = ⟨some n, some f, none⟩ ∧ f.ok = true ∧ 4 ≤ n ∧ n ≤ r.length := by
  rcases parse_cases c r with ⟨-, he⟩ | ⟨p, -, -, he⟩ | ⟨p, d, hspan, hunstuff, he⟩
  · rw [he] at h; cases h
  · rw [he] at h; cases h
  · have hlen : d.length ≤ r.length := (unstuff_length_le c p d hunstuff).trans (span_length_le hspan)
    rcases parseDecoded_cases d with ⟨-, hd⟩ | ⟨-, -, hd⟩ | ⟨d0, d1, d2, d3, tail, hcons, hd⟩
    · rw [he, hd] at h; cases h
    · rw [he, hd] at h; cases h
    · have hok : (headerFields d0 d1 d2 d3).ok = true := by simpa [he, hd] using h
      exact ⟨d.length, _, by simp [he, hd, hok], hok, by simp [hcons], hlen⟩

/-- `HDR.VALID` is set only by a `parse` without a fault. -/
theorem fault_none_of_hdrValid {v : ParseResult} (h : hdrValid (parsedHdr v) = true) :
    v.fault = none := by
  unfold parsedHdr at h
  split at h
  · exact absurd h (by decide)
  · simpa using h

theorem inv_parseResults (hs : s.Inv) : (parseResults (parse csf s.ibuf) s).Inv :=
  { hs with
    valid_means_header := fun h => by
      obtain ⟨n, f, hv, hok, hn, hlen⟩ := parse_eq_of_fault_none (fault_none_of_hdrValid h)
      have hcap : s.ibuf.length ≤ 8204 := hs.ibuf_fits
      have hmod : n % 16384 = n := Nat.mod_eq_of_lt (by omega)
      simp [hv, parsedHdr, hok, hmod, hn] }

theorem inv_execParse (hs : s.Inv) (h : execParse s = .next t) : t.Inv := by
  cases h
  refine inv_gated hs ?_
  split
  · exact inv_raise _ (inv_parseResults hs)
  · exact inv_consume (inv_parseResults hs)

/-! ## What `CLASSIFY` leaves in `PTYPE` (R30, R209) -/

theorem PacketType.code_le (k : PacketType) : k.code.toNat ≤ 6 := by cases k <;> decide

theorem codeOfOpcode_is_code (c : Params) (v : Word) :
    (codeOfOpcode c v).toNat ≤ 6 ∨ codeOfOpcode c v = unknownCode := by
  unfold codeOfOpcode
  split
  · exact .inl (PacketType.code_le _)
  · exact .inr rfl

theorem inferType_is_code (c : Params) (x : Bytes) :
    (inferType c x).toNat ≤ 6 ∨ inferType c x = unknownCode := by
  unfold inferType
  split
  · exact codeOfOpcode_is_code c _
  · exact .inr rfl

/-! ## The ports (R226, R227) -/

theorem inv_execPush {b : Byte} (hs : s.Inv) (h : execPush b s = .next t) : t.Inv := by
  refine inv_command hs h fun hclear hok => ?_
  split at hok
  · cases hok
  · next hroom =>
    cases hok
    have hlt : s.ibuf.length < csf.ibufCap := lt_of_le_of_ne hs.ibuf_fits hroom
    exact inv_withIbuf hs hclear (by simpa using hlt)

theorem inv_execPop (hs : s.Inv) (h : execPop s = .next t) : t.Inv := by
  unfold execPop at h
  split at h <;> cases h
  · exact inv_answer _ hs
  · next b rest hobuf =>
    have hfits : (b :: rest).length ≤ csf.obufCap := hobuf ▸ hs.obuf_fits
    exact inv_answer _ (inv_withObuf hs (Nat.le_of_succ_le hfits))

/-! ## Every instruction, every step, every run -/

theorem inv_exec {i : Instr} (hs : s.Inv) (h : exec i s = .next t) : t.Inv := by
  cases i with
  | nop => exact inv_command_ok hs h hs
  | clrErr => cases h; exact inv_clearFault hs
  | flush fi fo =>
    refine inv_command hs h fun hclear hok => ?_
    cases hok
    have hin : (if fi then [] else s.ibuf).length ≤ csf.ibufCap := by
      split
      · exact Nat.zero_le _
      · exact hs.ibuf_fits
    have hout : (if fo then [] else s.obuf).length ≤ csf.obufCap := by
      split
      · exact Nat.zero_le _
      · exact hs.obuf_fits
    exact inv_withIbuf (inv_withObuf hs hout) hclear hin
  | seqClr | crcInit | crcByte => exact inv_command_ok hs h (hs.of_fields rfl rfl rfl rfl rfl rfl)
  | crcBuf | crc16 =>
    exact inv_command_ok hs h ((inv_consume hs).of_fields rfl rfl rfl rfl rfl rfl)
  | crcPut => exact inv_command hs h fun _ => inv_emit hs
  | encode | wrap => exact inv_command hs h fun _ => inv_emitConsume hs
  | decode =>
    refine inv_command hs h fun _ hok => ?_
    split at hok
    · cases hok
    · exact inv_emitConsume hs hok
  | unwrap =>
    refine inv_command hs h fun _ hok => ?_
    split at hok
    · cases hok
    · split at hok
      · cases hok
      · exact inv_emitConsume hs hok
  | frame => exact inv_command hs h fun _ => inv_doFrame hs
  | frames rel dip kind =>
    refine inv_command hs h fun _ hok => ?_
    cases hframe : doFrame (nextSeq csf s.seq) dip rel kind s with
    | error f => rw [hframe] at hok; cases hok
    | ok u =>
      rw [hframe] at hok
      cases hok
      exact (inv_doFrame hs hframe).of_fields rfl rfl rfl rfl rfl rfl
  | parse => exact inv_execParse hs h
  | mkplInit | mkplStart | mkplData | mkplStopData | mkplValidate | mkplActivate | mkplPing =>
    exact inv_command hs h (inv_marshal hs)
  | classify => exact inv_command_ok hs h { hs with ptype_is_code := inferType_is_code csf s.ibuf }
  | push => exact inv_execPush hs h
  | pop => exact inv_execPop hs h
  | rd r =>
    cases r with
    | dout => cases h
    | _ => cases h; exact inv_answer _ hs
  | wr r v =>
    cases r with
    | cmd | din => cases h
    | _ => cases h; exact inv_writeReg _ v hs
  | reset => cases h; exact inv_reset.of_fields rfl rfl rfl rfl rfl rfl

theorem inv_illegalCommand (hs : s.Inv) : (illegalCommand s).Inv :=
  inv_gated hs (inv_raise _ hs)

theorem inv_serve {a : Access} (hs : s.Inv) (h : serve a s = .next t) : t.Inv := by
  rcases serve_cases h with ⟨i, -, hexec⟩ | ⟨-, rfl⟩
  · exact inv_exec hs hexec
  · exact inv_illegalCommand hs

/-- Everything a step can do: nothing is pending, or the oldest access is served. -/
theorem step_cases (h : step s = .next t) :
    (s.pending = [] ∧ t = s) ∨
    ∃ a rest, s.pending = a :: rest ∧ serve a { s with pending := rest } = .next t := by
  unfold step stepAccess fetch at h
  cases hp : s.pending with
  | nil => rw [hp] at h; cases h; exact .inl ⟨rfl, rfl⟩
  | cons a rest => rw [hp] at h; exact .inr ⟨a, rest, rfl, h⟩

theorem inv_step (hs : s.Inv) (h : step s = .next t) : t.Inv := by
  rcases step_cases h with ⟨-, rfl⟩ | ⟨a, rest, -, hserve⟩
  · exact hs
  · refine inv_serve ?_ hserve
    exact hs.of_fields rfl rfl rfl rfl rfl rfl

theorem inv_afterReset (program : List Access) : (afterReset program).Inv :=
  inv_reset.of_fields rfl rfl rfl rfl rfl rfl

end

/-- Settles O60, by induction on the run: the reset state meets the invariants whatever is pending, and
every step keeps them. -/
theorem reachableStatesMeetInvariants : Obligations.ReachableStatesMeetInvariants := by
  intro s hs
  induction hs with
  | start program => exact inv_afterReset program
  | next s t _ ht ih => exact inv_step ih ht

end Sys2Proof.Machine
end

section
/-!
The encoding of 30_encoding.md: the illegal command words of rule R93, the header of rules R100 to R102
and the frame of rule R104.
-/

open Sys2Proof.Claims

namespace Sys2Proof.Machine

/-! ## The fields of a command word (R90) -/

/-- A word is its `RSV`, `OP` and `ARG` fields. -/
theorem word_eq_fields (w : Word) :
    w = w.extractLsb' 24 8 ++ (opField w ++ w.extractLsb' 0 16) := by
  have hlow : opField w ++ w.extractLsb' 0 16 = w.extractLsb' 0 24 :=
    BitVec.extractLsb'_append_extractLsb'_eq_extractLsb' rfl
  have hall : w.extractLsb' 24 8 ++ w.extractLsb' 0 24 = w.extractLsb' 0 32 :=
    BitVec.extractLsb'_append_extractLsb'_eq_extractLsb' rfl
  rw [hlow, hall, BitVec.extractLsb'_eq_self]

theorem word_eq_iff {v w : Word} :
    v = w ↔ v.extractLsb' 24 8 = w.extractLsb' 24 8 ∧ opField v = opField w ∧
      v.extractLsb' 0 16 = w.extractLsb' 0 16 := by
  constructor
  · rintro rfl; exact ⟨rfl, rfl, rfl⟩
  · rintro ⟨hrsv, hop, harg⟩
    rw [word_eq_fields v, word_eq_fields w, hrsv, hop, harg]

/-- An `ARG` with the reserved bits of `MKPL` clear is its `ptype` field. -/
theorem arg_eq_ptype {a : BitVec 16} (h : a &&& 0xFFF8#16 = 0) : a = 0#13 ++ a.extractLsb' 0 3 := by
  have hhigh : a.extractLsb' 3 13 = 0#13 := by
    have hmask : (0xFFF8#16).extractLsb' 3 13 = BitVec.allOnes 13 := rfl
    rw [← BitVec.and_allOnes (x := a.extractLsb' 3 13), ← hmask, ← BitVec.extractLsb'_and, h]
    rfl
  have hall : a.extractLsb' 3 13 ++ a.extractLsb' 0 3 = a.extractLsb' 0 16 :=
    BitVec.extractLsb'_append_extractLsb'_eq_extractLsb' rfl
  rw [← hhigh, hall, BitVec.extractLsb'_eq_self]

/-! ## The rows of the opcode map against R91's reserved bits -/

/-- A row of a format other than `T`: it ignores the operand bits of `ARG` and wants 0 in the others. -/
def PlainRow (r : CommandRow) : Prop :=
  opField r.pat ≠ 0x40 ∧ reservedArg (opField r.pat) = some (r.mask.extractLsb' 0 16) ∧
    r.pat.extractLsb' 0 16 = 0

/-- A row of `MKPL` (format `T`): the whole of `ARG` is fixed, with a `ptype` other than 7. -/
def MkplRow (r : CommandRow) : Prop :=
  opField r.pat = 0x40 ∧ r.mask.extractLsb' 0 16 = BitVec.allOnes 16 ∧
    r.pat.extractLsb' 0 16 &&& 0xFFF8#16 = 0 ∧ r.pat.extractLsb' 0 3 ≠ 7

theorem commandRows_cases :
    ∀ r ∈ commandRows, r.mask.extractLsb' 24 8 = BitVec.allOnes 8 ∧ opField r.mask = BitVec.allOnes 8 ∧
      r.pat.extractLsb' 24 8 = 0 ∧ (PlainRow r ∨ MkplRow r) := by
  unfold PlainRow MkplRow
  decide

/-- What a row of the map selects: `RSV` is 0, `OP` is the row's, `ARG` agrees under the row's mask. -/
theorem selects_iff {r : CommandRow} (hr : r ∈ commandRows) (w : Word) :
    r.selects w = true ↔ w.extractLsb' 24 8 = 0 ∧ opField w = opField r.pat ∧
      w.extractLsb' 0 16 &&& r.mask.extractLsb' 0 16 = r.pat.extractLsb' 0 16 := by
  obtain ⟨hrsv, hop, hpat, -⟩ := commandRows_cases r hr
  have hopAnd : opField (w &&& r.mask) = opField w &&& opField r.mask := BitVec.extractLsb'_and
  rw [CommandRow.selects, beq_iff_eq, word_eq_iff, hopAnd, BitVec.extractLsb'_and, BitVec.extractLsb'_and,
    hrsv, hop, hpat, BitVec.and_allOnes, BitVec.and_allOnes]

/-- Each of the 18 values of `OP` but `MKPL`'s has a row. -/
theorem exists_plainRow {op : BitVec 8} {m : BitVec 16} (hop : op ≠ 0x40) (hm : reservedArg op = some m) :
    ∃ r ∈ commandRows, PlainRow r ∧ opField r.pat = op := by
  have hrows : ∀ o ∈ [0x00#8, 0x01, 0x03, 0x10, 0x12, 0x13, 0x14, 0x20, 0x21, 0x22, 0x23, 0x32, 0x41,
      0x11, 0x02, 0x30, 0x31], ∃ r ∈ commandRows, PlainRow r ∧ opField r.pat = o := by
    unfold PlainRow
    decide
  refine hrows op ?_
  by_contra hmem
  simp only [List.mem_cons, List.not_mem_nil, or_false, not_or, BitVec.ofNat_eq_ofNat] at hmem
  have hmkpl : op = 0x40 ∧ 0xFFF8#16 = m := by simpa [reservedArg, hmem] using hm
  exact hop hmkpl.1

theorem reservedArg_mkpl : reservedArg 0x40 = some 0xFFF8 := rfl

/-- Each `ptype` but 7 has a row. -/
theorem exists_mkplRow {t : BitVec 3} (ht : t ≠ 7) :
    ∃ r ∈ commandRows, MkplRow r ∧ r.pat.extractLsb' 0 16 = 0#13 ++ t := by
  unfold MkplRow
  revert t
  decide

/-! ## The illegal words (R93) -/

/-- The legal words: the negation of R93's list. -/
theorem not_illegal_iff {w : Word} :
    ¬ Illegal w ↔ w.extractLsb' 24 8 = 0 ∧ ∃ m, reservedArg (opField w) = some m ∧
      w.extractLsb' 0 16 &&& m = 0 ∧ (opField w = 0x40 → w.extractLsb' 0 3 ≠ 7) := by
  unfold Illegal
  cases reservedArg (opField w) <;> simp

/-- No row of the map selects an illegal word. -/
theorem not_illegal_of_selects {r : CommandRow} {w : Word} (hr : r ∈ commandRows) (hw : r.selects w = true) :
    ¬ Illegal w := by
  obtain ⟨hrsv, hop, harg⟩ := (selects_iff hr w).mp hw
  obtain ⟨-, -, hpatRsv, hrow⟩ := commandRows_cases r hr
  refine not_illegal_iff.mpr ⟨hrsv, ?_⟩
  rcases hrow with ⟨hne, hm, hpat⟩ | ⟨hmkpl, hmask, hpat, htype⟩
  · exact ⟨_, hop ▸ hm, harg.trans hpat, fun h => absurd (hop.symm.trans h) hne⟩
  · have harg : w.extractLsb' 0 16 = r.pat.extractLsb' 0 16 := by rwa [hmask, BitVec.and_allOnes] at harg
    have hw : w = r.pat := word_eq_iff.mpr ⟨hrsv.trans hpatRsv.symm, hop, harg⟩
    exact ⟨_, hop ▸ hmkpl ▸ reservedArg_mkpl, harg ▸ hpat, fun _ => hw ▸ htype⟩

/-- Some row of the map selects a word that is not illegal. -/
theorem exists_selects_of_not_illegal {w : Word} (hw : ¬ Illegal w) :
    ∃ r ∈ commandRows, r.selects w = true := by
  obtain ⟨hrsv, m, hm, harg, htype⟩ := not_illegal_iff.mp hw
  by_cases hop : opField w = 0x40
  · have hm' : m = 0xFFF8 := by rw [hop, reservedArg_mkpl] at hm; exact (Option.some.inj hm).symm
    obtain ⟨r, hr, ⟨hrop, hmask, -⟩, hpat⟩ := exists_mkplRow (htype hop)
    refine ⟨r, hr, (selects_iff hr w).mpr ⟨hrsv, hop.trans hrop.symm, ?_⟩⟩
    have hptype : (w.extractLsb' 0 16).extractLsb' 0 3 = w.extractLsb' 0 3 :=
      BitVec.extractLsb'_extractLsb'_of_le (by decide)
    have hself := arg_eq_ptype (hm' ▸ harg)
    rw [hptype] at hself
    rw [hmask, BitVec.and_allOnes, hpat]
    exact hself
  · obtain ⟨r, hr, ⟨-, hrm, hpat⟩, hrop⟩ := exists_plainRow hop hm
    have hmask : r.mask.extractLsb' 0 16 = m := Option.some.inj (hrm.symm.trans (hrop ▸ hm))
    exact ⟨r, hr, (selects_iff hr w).mpr ⟨hrsv, hrop.symm, by rw [hmask, harg, hpat]⟩⟩

theorem decodeCommand_eq_none_iff (w : Word) : decodeCommand w = none ↔ Illegal w := by
  rw [decodeCommand, Option.map_eq_none_iff, List.find?_eq_none]
  constructor
  · intro hnone
    by_contra hlegal
    obtain ⟨r, hr, hw⟩ := exists_selects_of_not_illegal hlegal
    exact hnone r hr hw
  · exact fun hillegal r hr hw => not_illegal_of_selects hr hw hillegal

theorem decode_cmdWrite_of_some {w : Word} {i : Instr} (h : decodeCommand w = some i) :
    decode (cmdWrite w) = .ok i := by
  change decodeWrite .cmd w = .ok i
  simp [decodeWrite, h]

theorem decode_cmdWrite_of_none {w : Word} (h : decodeCommand w = none) :
    decode (cmdWrite w) = .error .illegalCommand := by
  change decodeWrite .cmd w = .error .illegalCommand
  simp [decodeWrite, h]

theorem decode_cmdWrite_illegal_iff (w : Word) :
    Illegal w ↔ decode (cmdWrite w) = .error .illegalCommand := by
  rw [← decodeCommand_eq_none_iff]
  refine ⟨decode_cmdWrite_of_none, fun h => ?_⟩
  cases hi : decodeCommand w with
  | none => rfl
  | some i => rw [decode_cmdWrite_of_some hi] at h; cases h

/-! ## The faulted condition (R296) -/

/-- A command other than `CLR_ERR` is ignored while a fault is latched. -/
theorem exec_command_faulted {i : Instr} {s : State} (hi : (commandWord i).isSome) (hne : i ≠ .clrErr)
    (hs : s.err ≠ 0) : exec i s = .next s := by
  cases i with
  | clrErr => exact absurd rfl hne
  | push | pop | rd | wr | reset => cases hi
  | parse => exact congrArg Host.Outcome.next (gated_faulted _ hs)
  | _ => exact command_faulted _ hs

/-- The word of `CLR_ERR` is the only one that selects it, and every row selects a command. -/
theorem commandRows_read (w : Word) :
    ∀ r ∈ commandRows, (commandWord (r.read w)).isSome ∧
      (r.read w = .clrErr → r.pat = 0x00010000 ∧ r.mask = BitVec.allOnes 32) := by
  simp [commandRows, commandWord]

theorem decodeCommand_some {w : Word} {i : Instr} (h : decodeCommand w = some i) :
    (commandWord i).isSome ∧ (i = .clrErr → w = 0x00010000) := by
  obtain ⟨r, hfind, rfl⟩ := Option.map_eq_some_iff.mp h
  obtain ⟨hcommand, hclr⟩ := commandRows_read w r (List.mem_of_find?_eq_some hfind)
  refine ⟨hcommand, fun hi => ?_⟩
  obtain ⟨hpat, hmask⟩ := hclr hi
  have hselects : r.selects w = true := List.find?_some (p := fun r : CommandRow => r.selects w) hfind
  rwa [CommandRow.selects, beq_iff_eq, hpat, hmask, BitVec.and_allOnes] at hselects

theorem serve_cmdWrite_faulted {w : Word} {s : State} (hs : s.err ≠ 0) (hw : w ≠ 0x00010000) :
    serve (cmdWrite w) s = .next s := by
  cases hi : decodeCommand w with
  | none =>
    rw [serve_illegal s (decode_cmdWrite_of_none hi), illegalCommand, gated_faulted _ hs]
  | some i =>
    obtain ⟨hcommand, hclr⟩ := decodeCommand_some hi
    rw [serve_ok s (decode_cmdWrite_of_some hi)]
    exact exec_command_faulted hcommand (fun h => hw (hclr h)) hs

/-- Settles O3: the decoder's rows are compared with R91's reserved bits row by row, and both an illegal
word and a command go through the gate of the faulted condition. -/
theorem illegalWordsAreTheListedOnesAndFault : Obligations.IllegalWordsAreTheListedOnesAndFault := by
  intro w
  refine ⟨decode_cmdWrite_illegal_iff w, fun s hs hw => ?_, fun s => serve_cmdWrite_faulted⟩
  rw [serve_illegal s ((decode_cmdWrite_illegal_iff w).mp hw), illegalCommand, gated_clear _ hs]
  rfl

/-! ## The header (R100 to R102) -/

theorem toNat_append_eq {m n : Nat} (x : BitVec m) (y : BitVec n) :
    (x ++ y).toNat = x.toNat * 2 ^ n + y.toNat := by
  rw [BitVec.toNat_append, ← Nat.shiftLeft_add_eq_or_of_lt y.isLt, Nat.shiftLeft_eq]

theorem headerChecksum_toNat (h0 h1 h2 : Byte) :
    (headerChecksum h0 h1 h2).toNat = (256 - (h0.toNat + h1.toNat + h2.toNat) % 256) % 256 := by
  rw [headerChecksum, BitVec.toNat_neg, BitVec.toNat_add, BitVec.toNat_add]
  omega

theorem headerChecksum_eq_zero {h0 h1 h2 : Byte} (h : (h0.toNat + h1.toNat + h2.toNat) % 256 = 0) :
    headerChecksum h0 h1 h2 = 0 :=
  BitVec.eq_of_toNat_eq (by rw [headerChecksum_toNat, h]; rfl)

theorem checksumValid_iff (h0 h1 h2 h3 : Byte) :
    checksumValid h0 h1 h2 h3 = true ↔ (h0.toNat + h1.toNat + h2.toNat + h3.toNat) % 256 = 0 := by
  simp [checksumValid, ← BitVec.toNat_inj, BitVec.toNat_add]

theorem checksumValid_headerChecksum (h0 h1 h2 : Byte) :
    checksumValid h0 h1 h2 (headerChecksum h0 h1 h2) = true := by
  rw [checksumValid_iff, headerChecksum_toNat]
  omega

section
variable (rel dip : Bool) (ack seq : SeqNum) (kind : Kind) (n : BitVec 12)

/-- The first byte of a header (R100). -/
def headerByte0 : Byte := BitVec.ofBool rel ++ BitVec.ofBool dip ++ ack ++ seq

/-- The second byte of a header (R100). -/
def headerByte1 : Byte := n.extractLsb' 0 4 ++ kind

/-- The third byte of a header (R100). -/
def headerByte2 : Byte := n.extractLsb' 4 8

theorem mkhdr_eq : mkhdr rel dip ack seq kind n =
    [headerByte0 rel dip ack seq, headerByte1 kind n, headerByte2 n,
      headerChecksum (headerByte0 rel dip ack seq) (headerByte1 kind n) (headerByte2 n)] := rfl

theorem headerByte0_toNat : (headerByte0 rel dip ack seq).toNat =
    rel.toNat * 128 + dip.toNat * 64 + ack.toNat * 8 + seq.toNat := by
  simp only [headerByte0, toNat_append_eq, BitVec.toNat_ofBool]
  omega

theorem headerByte1_toNat : (headerByte1 kind n).toNat = n.toNat % 16 * 16 + kind.toNat := by
  rw [headerByte1, toNat_append_eq, BitVec.extractLsb'_toNat]
  simp

/-- The upper half of the second byte is the low part of the length. -/
theorem headerByte1_extract_len : (headerByte1 kind n).extractLsb' 4 4 = n.extractLsb' 0 4 :=
  BitVec.extractLsb'_append_eq_left

theorem headerByte2_toNat : (headerByte2 n).toNat = n.toNat / 16 := by
  simp only [headerByte2, BitVec.extractLsb'_toNat, Nat.shiftRight_eq_div_pow]
  omega

/-- The length is its low half in the second byte and the rest in the third (R102). -/
theorem len_eq_headerBytes :
    n.toNat = ((headerByte1 kind n).extractLsb' 4 4).toNat + 16 * (headerByte2 n).toNat := by
  rw [headerByte1_extract_len, headerByte2_toNat, BitVec.extractLsb'_toNat, Nat.shiftRight_zero]
  omega

/-- Reading back the header that `mkhdr` makes (R102). -/
theorem headerFields_mkhdr {h0 h1 h2 h3 : Byte} (h : mkhdr rel dip ack seq kind n = [h0, h1, h2, h3]) :
    headerFields h0 h1 h2 h3 = ⟨true, n, kind, rel, dip, ack, seq⟩ := by
  rw [mkhdr_eq] at h
  cases h
  unfold headerFields
  congr 1
  · exact checksumValid_headerChecksum _ _ _
  · have hall : n.extractLsb' 4 8 ++ n.extractLsb' 0 4 = n.extractLsb' 0 12 :=
      BitVec.extractLsb'_append_extractLsb'_eq_extractLsb' rfl
    rw [headerByte1_extract_len, headerByte2, hall, BitVec.extractLsb'_eq_self]
  · exact BitVec.extractLsb'_append_eq_right
  · simp only [headerByte0, BitVec.getLsbD_append]
    simp
  · simp only [headerByte0, BitVec.getLsbD_append]
    simp
  · rw [headerByte0, BitVec.extractLsb'_append_eq_of_le (by decide)]
    exact BitVec.extractLsb'_append_eq_right
  · exact BitVec.extractLsb'_append_eq_right
end

/-- Settles O24: the bytes of `mkhdr` in numbers, their negated sum, and the fields read back from them. -/
theorem headerLayoutAndChecksum : Obligations.HeaderLayoutAndChecksum := by
  refine ⟨fun rel dip ack seq kind n => ⟨_, _, _, _, mkhdr_eq rel dip ack seq kind n, ?_⟩, checksumValid_iff⟩
  have hsum := (checksumValid_iff _ _ _ _).mp
    (checksumValid_headerChecksum (headerByte0 rel dip ack seq) (headerByte1 kind n) (headerByte2 n))
  exact ⟨headerByte0_toNat rel dip ack seq, headerByte1_toNat kind n, headerByte2_toNat n,
    headerChecksum_toNat _ _ _, hsum, headerChecksum_eq_zero, len_eq_headerBytes kind n,
    headerFields_mkhdr rel dip ack seq kind n rfl⟩

/-! ## The frame (R104) -/

section
variable {c : Params}

theorem stuffByte_length (b : Byte) : 1 ≤ (stuffByte c b).length ∧ (stuffByte c b).length ≤ 2 := by
  unfold stuffByte
  split
  · simp
  · split <;> simp

/-- Stuffing at most doubles the length and never shortens. -/
theorem stuff_length (s : Bytes) : s.length ≤ (stuff c s).length ∧ (stuff c s).length ≤ 2 * s.length := by
  induction s with
  | nil => simp [stuff]
  | cons b t ih =>
    have hb := stuffByte_length (c := c) b
    simp only [stuff, List.length_append, List.length_cons]
    omega

theorem boundary_notMem_stuffByte (hc : c.Legal) (b : Byte) : c.boundary ∉ stuffByte c b := by
  obtain ⟨hesc, -, hescBoundary, hescEsc⟩ := hc
  unfold stuffByte
  split
  · simp [hesc, hescBoundary.symm]
  · split
    · simp [hesc, hescEsc.symm]
    · next hb _ => simpa using Ne.symm hb

theorem boundary_notMem_stuff (hc : c.Legal) (s : Bytes) : c.boundary ∉ stuff c s := by
  induction s with
  | nil => simp [stuff]
  | cons b t ih => simp [stuff, boundary_notMem_stuffByte hc b, ih]

theorem wrap_length (s : Bytes) : (wrap c s).length = (stuff c s).length + 2 := by
  simp [wrap]

end

section
variable (c : Params) (seq : SeqNum) (dip rel : Bool) (kind : Kind) (p : Bytes)

theorem frame_bytes_eq : (frame c seq dip rel kind p).1 =
    wrap c (frameBody seq dip rel kind p ++ le16 (crc16 c (frameBody seq dip rel kind p))) := rfl

theorem frameBody_length : (frameBody seq dip rel kind p).length = p.length + 4 := by
  simp [frameBody, Nat.add_comm]

/-- Header and CRC are six bytes beside the payload, and the two delimiters are not stuffed. -/
theorem frame_length_bounds : p.length + 8 ≤ (frame c seq dip rel kind p).1.length ∧
    (frame c seq dip rel kind p).1.length ≤ 2 * (p.length + 6) + 2 := by
  have hstuff := stuff_length (c := c)
    (frameBody seq dip rel kind p ++ le16 (crc16 c (frameBody seq dip rel kind p)))
  rw [List.length_append, frameBody_length, le16_length] at hstuff
  rw [frame_bytes_eq, wrap_length]
  omega

end

/-- Settles O25: a frame is a wrapped body, stuffing leaves no boundary byte in it and at most doubles it. -/
theorem frameShapeAndLength : Obligations.FrameShapeAndLength := by
  intro c seq dip rel kind p hc hp
  obtain ⟨hmin, hmax⟩ := frame_length_bounds c seq dip rel kind p
  exact ⟨_, frame_bytes_eq c seq dip rel kind p, rfl, boundary_notMem_stuff hc _, hmin, hmax, by omega⟩

end Sys2Proof.Machine
end

section
/-!
The checksum engine of 40_crc.md: the two forms of `crc_step` (rules R131, R139) and the commands of
rules R134 to R138.
-/

open Sys2Proof.Claims

namespace Sys2Proof.Machine

/-! ## Functions that respect xor -/

/-- `f` takes xor to xor: it is linear over the field of two elements. -/
def XorLinear {m n : Nat} (f : BitVec m → BitVec n) : Prop := ∀ x y, f (x ^^^ y) = f x ^^^ f y

section
variable {m n : Nat} {f g : BitVec m → BitVec n}

theorem XorLinear.id : XorLinear fun x : BitVec m => x := fun _ _ => rfl

theorem XorLinear.xor (hf : XorLinear f) (hg : XorLinear g) : XorLinear fun x => f x ^^^ g x := by
  intro x y
  simp only [hf x y, hg x y]
  ac_rfl

theorem XorLinear.comp {k : Nat} {e : BitVec n → BitVec k} (he : XorLinear e) (hf : XorLinear f) :
    XorLinear fun x => e (f x) := by
  intro x y
  simp only [hf x y, he _ _]

theorem XorLinear.and (hf : XorLinear f) (k : BitVec n) : XorLinear fun x => f x &&& k := by
  intro x y
  simp only [hf x y]
  ext j hj
  simp [Bool.and_xor_distrib_right]

theorem XorLinear.shiftLeft (hf : XorLinear f) (k : Nat) : XorLinear fun x => f x <<< k := by
  intro x y
  simp only [hf x y, BitVec.shiftLeft_xor_distrib]

theorem XorLinear.ushiftRight (hf : XorLinear f) (k : Nat) : XorLinear fun x => f x >>> k := by
  intro x y
  simp only [hf x y, BitVec.ushiftRight_xor_distrib]

/-- A vector under the control of one bit of the argument. -/
theorem XorLinear.ite (i : Nat) (p : BitVec n) : XorLinear fun x : BitVec m => if x.getLsbD i then p else 0#n := by
  intro x y
  simp only [BitVec.getLsbD_xor]
  cases x.getLsbD i <;> cases y.getLsbD i <;> simp

theorem XorLinear.map_zero (hf : XorLinear f) : f 0#m = 0#n := by
  have h := hf 0#m 0#m
  rwa [BitVec.xor_self, BitVec.xor_self] at h

/-- The low `i + 1` bits of a vector are its low `i` bits and bit `i`. -/
theorem setWidth_succ_eq_xor (x : BitVec m) (i : Nat) :
    (x.setWidth (i + 1)).setWidth m =
      (x.setWidth i).setWidth m ^^^ if x.getLsbD i then BitVec.twoPow m i else 0#m := by
  ext j hj
  rcases Nat.lt_trichotomy j i with h | rfl | h
  · split <;> simp [h, h.ne, Nat.lt_succ_of_lt h]
  · split <;> simp_all [← BitVec.getLsbD_eq_getElem]
  · have hlt : ¬ j < i + 1 := by omega
    split <;> simp [hlt, h.ne', Nat.not_lt_of_gt h]

/-- Linear functions that agree on each single bit are equal: a vector is the xor of its bits. -/
theorem XorLinear.ext (hf : XorLinear f) (hg : XorLinear g)
    (h : ∀ i < m, f (BitVec.twoPow m i) = g (BitVec.twoPow m i)) (x : BitVec m) : f x = g x := by
  have hlow : ∀ i ≤ m, f ((x.setWidth i).setWidth m) = g ((x.setWidth i).setWidth m) := by
    intro i
    induction i with
    | zero =>
      intro _
      have hzero : (x.setWidth 0).setWidth m = 0#m := by ext; simp
      rw [hzero, hf.map_zero, hg.map_zero]
    | succ i ih =>
      intro hi
      rw [setWidth_succ_eq_xor, hf, hg, ih (by omega)]
      split
      · rw [h i hi]
      · rw [hf.map_zero, hg.map_zero]
  simpa using hlow m le_rfl

end

/-! ## The two forms of `crc_step` (R131, R139) -/

/-- One shift of R131's loop: the bit shifted out adds the polynomial. -/
theorem crcShift_eq_xor (c : Crc) :
    crcShift c = (c <<< 1) ^^^ if c.getLsbD 15 then 0x1021#16 else 0#16 := by
  unfold crcShift
  split <;> simp

theorem crcShift_linear : XorLinear crcShift := by
  have h : XorLinear fun c : Crc => (c <<< 1) ^^^ if c.getLsbD 15 then 0x1021#16 else 0#16 :=
    .xor (.shiftLeft .id 1) (.ite 15 _)
  simpa only [← crcShift_eq_xor] using h

theorem crcShifts_linear (k : Nat) : XorLinear (crcShifts k) := by
  induction k with
  | zero => exact .id
  | succ k ih => exact ih.comp crcShift_linear

/-- The first line of R139. -/
def swapBytes (c : Crc) : Crc := (c >>> 8) ||| (c <<< 8)

/-- The last three lines of R139. -/
def crcMix (c : Crc) : Crc :=
  let c3 := c ^^^ ((c &&& 0x00FF#16) >>> 4)
  let c4 := c3 ^^^ (c3 <<< 12)
  c4 ^^^ ((c4 &&& 0x00FF#16) <<< 5)

theorem crcStepNoLoop_eq_crcMix (c : Crc) (b : Byte) :
    crcStepNoLoop c b = crcMix (swapBytes c ^^^ b.setWidth 16) := rfl

/-- The two halves do not overlap once shifted, so joining them is a xor. -/
theorem swapBytes_eq_xor (c : Crc) : swapBytes c = (c >>> 8) ^^^ (c <<< 8) := by
  unfold swapBytes
  ext j hj
  by_cases h : j < 8
  · simp [h]
  · have hge : 16 ≤ 8 + j := by omega
    simp [BitVec.getLsbD_of_ge c (8 + j) hge]

theorem swapBytes_linear : XorLinear swapBytes := by
  have h : XorLinear fun c : Crc => (c >>> 8) ^^^ (c <<< 8) := .xor (.ushiftRight .id 8) (.shiftLeft .id 8)
  simpa only [← swapBytes_eq_xor] using h

theorem crcMix_linear : XorLinear crcMix := by
  have h3 : XorLinear fun c : Crc => c ^^^ ((c &&& 0x00FF#16) >>> 4) :=
    .xor .id (.ushiftRight (.and .id _) 4)
  have h4 : XorLinear fun c : Crc => c ^^^ (c <<< 12) := .xor .id (.shiftLeft .id 12)
  have h5 : XorLinear fun c : Crc => c ^^^ ((c &&& 0x00FF#16) <<< 5) :=
    .xor .id (.shiftLeft (.and .id _) 5)
  exact h5.comp (h4.comp h3)

/-- A byte in the high half goes to the low half. -/
theorem swapBytes_highByte (b : Byte) : swapBytes (b.setWidth 16 <<< 8) = b.setWidth 16 := by
  unfold swapBytes
  ext j hj
  by_cases h : j < 8
  · have hlt : 8 + j < 16 := by omega
    simp [h, hlt]
  · simp [BitVec.getLsbD_of_ge b j (by omega)]

/-- On one bit both forms give one value: sixteen cases. -/
theorem crcMix_swapBytes_twoPow :
    ∀ i < 16, crcMix (swapBytes (BitVec.twoPow 16 i)) = crcShifts 8 (BitVec.twoPow 16 i) := by
  decide

/-- Settles O10: both forms are linear functions of the CRC with the byte xored into its high half, and
they agree on each of the sixteen bits. -/
theorem crcStepFormsAgree : Obligations.CrcStepFormsAgree := by
  intro c b
  calc crcStepNoLoop c b = crcMix (swapBytes c ^^^ b.setWidth 16) := crcStepNoLoop_eq_crcMix c b
    _ = crcMix (swapBytes (c ^^^ (b.setWidth 16 <<< 8))) := by
        rw [swapBytes_linear, swapBytes_highByte]
    _ = crcShifts 8 (c ^^^ (b.setWidth 16 <<< 8)) :=
        (crcMix_linear.comp swapBytes_linear).ext (crcShifts_linear 8) crcMix_swapBytes_twoPow _
    _ = crcStep c b := rfl

/-! ## The words of the map (R93, R94) -/

/-- A word that agrees with a row where the row's mask is set selects that row: no earlier one does. -/
theorem decodeCommand_of_mem {r : CommandRow} {w : Word} (hr : r ∈ commandRows) (hw : w &&& r.mask = r.pat) :
    decodeCommand w = some (r.read w) := by
  obtain ⟨before, after, hsplit⟩ := List.append_of_mem hr
  have hdisjoint : ∀ q ∈ before, q.pat &&& r.mask ≠ r.pat &&& q.mask := fun q hq =>
    (List.pairwise_append.mp (hsplit ▸ commandRows_disjoint)).2.2 q hq r List.mem_cons_self
  have hfind : commandRows.find? (fun q => q.selects w) = some r := by
    refine List.find?_eq_some_iff_append.mpr ⟨by simpa [CommandRow.selects] using hw, before, after, hsplit, ?_⟩
    intro q hq
    have hne : w &&& q.mask ≠ q.pat := by
      rintro hqw
      apply hdisjoint q hq
      rw [← hqw, ← hw, BitVec.and_assoc, BitVec.and_assoc, BitVec.and_comm q.mask]
    simpa [CommandRow.selects] using hne
  rw [decodeCommand, hfind, Option.map_some]

/-- An illegal word raises `IllegalCommand` (R93). -/
theorem raisesIllegal_of_illegal {v : Word} (hv : Illegal v) : RaisesIllegal v := by
  obtain ⟨hdecode, hserve, -⟩ := illegalWordsAreTheListedOnesAndFault v
  exact ⟨hdecode.mp hv, fun s hs => hserve s hs hv⟩

/-- With every bit of `ARG` reserved, a legal word is its `OP` alone. -/
theorem eq_of_not_illegal {v w : Word} (hres : reservedArg (opField w) = some (BitVec.allOnes 16))
    (hop : opField v = opField w) (hv : ¬ Illegal v) (hw : ¬ Illegal w) : v = w := by
  have harg : ∀ u, opField u = opField w → ¬ Illegal u → u.extractLsb' 24 8 = 0 ∧ u.extractLsb' 0 16 = 0 := by
    intro u hu hlegal
    obtain ⟨hrsv, m, hm, hzero, -⟩ := not_illegal_iff.mp hlegal
    rw [hu, hres] at hm
    cases hm
    exact ⟨hrsv, by rwa [BitVec.and_allOnes] at hzero⟩
  obtain ⟨hvRsv, hvArg⟩ := harg v hop hv
  obtain ⟨hwRsv, hwArg⟩ := harg w rfl hw
  exact word_eq_iff.mpr ⟨hvRsv.trans hwRsv.symm, hop, hvArg.trans hwArg.symm⟩

/-- A command of format `Z` has one word (R91, R93). -/
theorem onlyWord_of_formatZ {w : Word} {i : Instr} (hw : decodeCommand w = some i)
    (hres : reservedArg (opField w) = some (BitVec.allOnes 16)) : OnlyWord w i := by
  refine ⟨decode_cmdWrite_of_some hw, fun v hop hne => raisesIllegal_of_illegal ?_⟩
  by_contra hv
  have hlegal : ¬ Illegal w := by rw [← decodeCommand_eq_none_iff, hw]; exact Option.some_ne_none i
  exact hne (eq_of_not_illegal hres hop hv hlegal)

/-! ## `CRC_INIT` (R134) -/

/-- Settles O11: a command of format `Z` whose body cannot raise. -/
theorem crcInitLoadsInitialValue : Obligations.CrcInitLoadsInitialValue :=
  ⟨onlyWord_of_formatZ rfl rfl, fun _ hs => command_clear_ok hs⟩

/-! ## `CRC_BYTE` (R135) -/

/-- The word of `CRC_BYTE` is its fixed 24 bits and the byte. -/
theorem decodeCommand_crcByte (b : Byte) : decodeCommand (0x001100#24 ++ b) = some (.crcByte b) := by
  have hrow : (⟨0x00110000, 0xFFFFFF00, fun w => .crcByte (w.extractLsb' 0 8)⟩ : CommandRow) ∈ commandRows := by
    simp [commandRows]
  have hmask : (0x001100#24 ++ b) &&& 0xFFFFFF00#32 = 0x00110000#32 := by
    have hsplit : 0xFFFFFF00#32 = BitVec.allOnes 24 ++ 0#8 := rfl
    rw [hsplit, BitVec.and_append, BitVec.and_allOnes, BitVec.and_zero]
    rfl
  have hbyte : (0x001100#24 ++ b).extractLsb' 0 8 = b := BitVec.extractLsb'_append_eq_right
  exact (decodeCommand_of_mem hrow hmask).trans (congrArg (fun b => some (Instr.crcByte b)) hbyte)

/-- `CRC_BYTE` reserves `RSV` and the high half of `ARG`. -/
theorem illegal_crcByte {v : Word} (hop : opField v = 0x11)
    (hres : v.extractLsb' 8 8 ≠ 0 ∨ v.extractLsb' 24 8 ≠ 0) : Illegal v := by
  by_contra hv
  obtain ⟨hrsv, m, hm, harg, -⟩ := not_illegal_iff.mp hv
  rw [hop] at hm
  cases hm
  have hhigh : v.extractLsb' 8 8 = 0 :=
    calc v.extractLsb' 8 8 = (v.extractLsb' 0 16).extractLsb' 8 8 :=
          (BitVec.extractLsb'_extractLsb'_of_le (by decide)).symm
      _ = (v.extractLsb' 0 16 &&& 0xFF00#16).extractLsb' 8 8 := by
          have hmask : (0xFF00#16).extractLsb' 8 8 = BitVec.allOnes 8 := rfl
          rw [BitVec.extractLsb'_and, hmask, BitVec.and_allOnes]
      _ = 0 := congrArg (BitVec.extractLsb' 8 8) harg
  exact hres.elim (· hhigh) (· hrsv)

/-- Settles O12: the row of `CRC_BYTE` fixes every bit but the byte's. -/
theorem crcByteFoldsOneByte : Obligations.CrcByteFoldsOneByte :=
  ⟨fun b => decode_cmdWrite_of_some (decodeCommand_crcByte b),
    fun _ hop hres => raisesIllegal_of_illegal (illegal_crcByte hop hres),
    fun _ _ hs => command_clear_ok hs⟩

/-! ## `CRC_BUF` and `CRC16` (R132, R133, R136, R137) -/

section
variable (c : Params) (x : Crc)

theorem crcFold_nil : crcFold c x [] = x := rfl

theorem crcFold_cons (b : Byte) (t : Bytes) : crcFold c x (b :: t) = crcFold c (c.crcStep x b) t := rfl

theorem crcFold_append (s t : Bytes) : crcFold c x (s ++ t) = crcFold c (crcFold c x s) t := by
  induction s generalizing x with
  | nil => rfl
  | cons b s ih => exact ih (c.crcStep x b)

end

theorem crc16_csf (s : Bytes) : crc16 csf s = crcFold csf 0xFFFF s := rfl

/-- The check value of R133. -/
theorem crc16_checkValue :
    crc16 csf [0x31, 0x32, 0x33, 0x34, 0x35, 0x36, 0x37, 0x38, 0x39] = 0x29B1 := by
  decide +kernel

/-- Settles O13: the fold is over the list, so it may be cut anywhere. -/
theorem crcBufFoldsInput : Obligations.CrcBufFoldsInput :=
  ⟨onlyWord_of_formatZ rfl rfl, crcFold_nil csf, crcFold_cons csf, crcFold_append csf,
    fun _ hs => command_clear_ok hs⟩

/-- Settles O14: `crc16` is the fold from `CRC_INIT`, so the old `CRC` is not in it. -/
theorem crc16ReplacesCrc : Obligations.Crc16ReplacesCrc :=
  ⟨onlyWord_of_formatZ rfl rfl, crc16_csf, rfl, crc16_checkValue, fun _ hs => command_clear_ok hs⟩

/-! ## `CRC_PUT` (R138) -/

/-- A command that only appends a result to `OBUF`, with no fault latched: it raises `OutputOverflow`
when there is no room. -/
theorem command_emit_clear {s : State} (y : Bytes) (hs : s.err = 0) : command s (emit y s) =
    .next (if s.obuf.length + y.length > 8204 then latch 3 s else { s with obuf := s.obuf ++ y }) := by
  rcases emit_cases y s with ⟨hfits, hok⟩ | ⟨hover, herror⟩
  · rw [csf_obufCap] at hfits
    rw [hok, command_clear_ok hs, if_neg (Nat.not_lt.mpr hfits)]
    rfl
  · rw [csf_obufCap] at hover
    rw [herror, command_clear_error hs, if_pos hover]
    rfl

/-- Settles O15: `CRC_PUT` is the append of the two bytes of `CRC`, whose length is fixed. -/
theorem crcPutAppendsLowByteFirst : Obligations.CrcPutAppendsLowByteFirst :=
  ⟨onlyWord_of_formatZ rfl rfl, fun s hs => command_emit_clear (le16 s.crc) hs⟩

end Sys2Proof.Machine
end

section
/-!
The byte-stuffing codec of 41_stuffing.md: the laws of `stuff`, `unstuff` and `span` (rules R150 to
R153), then the four commands of rules R154 to R157.
-/

open Sys2Proof.Claims

namespace Sys2Proof.Machine

section
variable {c : Params}

/-! ## `stuff` (R150) -/

theorem stuff_nil : stuff c [] = [] := rfl

theorem stuff_cons (b : Byte) (t : Bytes) : stuff c (b :: t) = stuffByte c b ++ stuff c t := rfl

theorem stuff_append (s t : Bytes) : stuff c (s ++ t) = stuff c s ++ stuff c t := by
  induction s with
  | nil => rfl
  | cons b s ih => rw [List.cons_append, stuff_cons, ih, stuff_cons, List.append_assoc]

theorem stuffByte_boundary : stuffByte c c.boundary = [c.esc, c.escBoundary] := if_pos rfl

theorem stuffByte_esc (hne : c.boundary ≠ c.esc) : stuffByte c c.esc = [c.esc, c.escEsc] := by
  simp [stuffByte, hne.symm]

theorem stuffByte_plain {b : Byte} (hboundary : b ≠ c.boundary) (hesc : b ≠ c.esc) :
    stuffByte c b = [b] := by
  rw [stuffByte, if_neg hboundary, if_neg hesc]

/-- Everything `stuffByte` can give. -/
theorem stuffByte_cases (b : Byte) :
    (b = c.boundary ∧ stuffByte c b = [c.esc, c.escBoundary]) ∨
    (b ≠ c.boundary ∧ b = c.esc ∧ stuffByte c b = [c.esc, c.escEsc]) ∨
    (b ≠ c.boundary ∧ b ≠ c.esc ∧ stuffByte c b = [b]) := by
  by_cases hboundary : b = c.boundary
  · exact .inl ⟨hboundary, hboundary ▸ stuffByte_boundary⟩
  · by_cases hesc : b = c.esc
    · subst hesc
      exact .inr (.inl ⟨hboundary, rfl, stuffByte_esc (Ne.symm hboundary)⟩)
    · exact .inr (.inr ⟨hboundary, hesc, stuffByte_plain hboundary hesc⟩)

/-- The two escaped bytes are the ones that take two bytes. -/
theorem stuffByte_length_eq (b : Byte) :
    (stuffByte c b).length = 1 + if b == c.boundary || b == c.esc then 1 else 0 := by
  rcases stuffByte_cases (c := c) b with ⟨hb, he⟩ | ⟨-, hb, he⟩ | ⟨hboundary, hesc, he⟩
  · rw [he]; simp [hb]
  · rw [he]; simp [hb]
  · rw [he]; simp [hboundary, hesc]

theorem stuff_length_eq (s : Bytes) :
    (stuff c s).length = s.length + s.countP (fun x => x == c.boundary || x == c.esc) := by
  induction s with
  | nil => rfl
  | cons b t ih =>
    rw [stuff_cons, List.length_append, stuffByte_length_eq, ih, List.length_cons, List.countP_cons]
    omega

/-- Settles O17: the equations are the definition's; the length adds up over the bytes. -/
theorem stuffEscapesAndGrows : Obligations.StuffEscapesAndGrows := by
  intro c b s
  obtain ⟨hmin, hmax⟩ := stuff_length (c := c) s
  exact ⟨stuff_nil, stuff_cons b s, hmin, hmax, stuff_length_eq s⟩

/-! ## `unstuff` (R151): one equation per form of the input -/

theorem unstuff_nil : unstuff c [] = some [] := rfl

theorem unstuff_boundary (y : Bytes) : unstuff c (c.boundary :: y) = none := by
  cases y <;> simp [unstuff]

theorem unstuff_esc : unstuff c [c.esc] = none := by simp [unstuff]

theorem unstuff_plain {b : Byte} (hboundary : b ≠ c.boundary) (hesc : b ≠ c.esc) (y : Bytes) :
    unstuff c (b :: y) = (unstuff c y).map (b :: ·) := by
  cases y <;> simp [unstuff, hboundary, hesc]

theorem unstuff_esc_cons (hne : c.boundary ≠ c.esc) (e : Byte) (y : Bytes) :
    unstuff c (c.esc :: e :: y) =
      if e = c.escBoundary then (unstuff c y).map (c.boundary :: ·)
      else if e = c.escEsc then (unstuff c y).map (c.esc :: ·) else none := by
  simp [unstuff, hne.symm]

/-! ## The laws of the codec (R152) -/

/-- `unstuff` takes one escape sequence off the front and gives its byte. -/
theorem unstuff_stuffByte_append (hc : c.Legal) (b : Byte) (y : Bytes) :
    unstuff c (stuffByte c b ++ y) = (unstuff c y).map (b :: ·) := by
  obtain ⟨hne, hescapes, -, -⟩ := hc
  rcases stuffByte_cases (c := c) b with ⟨rfl, he⟩ | ⟨-, rfl, he⟩ | ⟨hboundary, hesc, he⟩
  · rw [he]
    exact (unstuff_esc_cons hne _ y).trans (if_pos rfl)
  · rw [he]
    exact (unstuff_esc_cons hne _ y).trans ((if_neg hescapes.symm).trans (if_pos rfl))
  · rw [he]
    exact unstuff_plain hboundary hesc y

/-- A stuffed sequence in front is decoded by itself. -/
theorem unstuff_stuff_append (hc : c.Legal) (x y : Bytes) :
    unstuff c (stuff c x ++ y) = (unstuff c y).map (x ++ ·) := by
  induction x with
  | nil => simp [stuff_nil]
  | cons b x ih =>
    rw [stuff_cons, List.append_assoc, unstuff_stuffByte_append hc, ih, Option.map_map]
    rfl

theorem unstuff_stuff (hc : c.Legal) (x : Bytes) : unstuff c (stuff c x) = some x := by
  simpa [unstuff_nil] using unstuff_stuff_append hc x []

/-- An accepted sequence is the stuffed form of its result. -/
theorem stuff_of_unstuff (hne : c.boundary ≠ c.esc) {y x : Bytes} (h : unstuff c y = some x) :
    stuff c x = y := by
  induction y using unstuff.induct (c := c) generalizing x with
  | case1 => cases h; rfl
  | case2 => rw [unstuff_boundary] at h; cases h
  | case3 => rw [unstuff_esc] at h; cases h
  | case4 b hboundary hesc =>
    rw [unstuff_plain hboundary hesc] at h
    cases h
    rw [stuff_cons, stuffByte_plain hboundary hesc]
    rfl
  | case5 => rw [unstuff_boundary] at h; cases h
  | case6 t _ ih =>
    rw [unstuff_esc_cons hne, if_pos rfl] at h
    obtain ⟨z, hz, rfl⟩ := Option.map_eq_some_iff.mp h
    rw [stuff_cons, stuffByte_boundary, ih hz]
    rfl
  | case7 t _ hescapes ih =>
    rw [unstuff_esc_cons hne, if_neg hescapes, if_pos rfl] at h
    obtain ⟨z, hz, rfl⟩ := Option.map_eq_some_iff.mp h
    rw [stuff_cons, stuffByte_esc hne, ih hz]
    rfl
  | case8 e t hescBoundary hescEsc _ =>
    rw [unstuff_esc_cons hne, if_neg hescBoundary, if_neg hescEsc] at h
    cases h
  | case9 b e t hboundary hesc ih =>
    rw [unstuff_plain hboundary hesc] at h
    obtain ⟨z, hz, rfl⟩ := Option.map_eq_some_iff.mp h
    rw [stuff_cons, stuffByte_plain hboundary hesc, ih hz]
    rfl

/-- A sequence is accepted exactly when it is a stuffed one. -/
theorem unstuff_eq_some_iff (hc : c.Legal) {y x : Bytes} : unstuff c y = some x ↔ y = stuff c x :=
  ⟨fun h => (stuff_of_unstuff hc.1 h).symm, fun h => h ▸ unstuff_stuff hc x⟩

/-- An accepted sequence with a lone `ESC` after it is not accepted. -/
theorem unstuff_stuff_append_esc (hc : c.Legal) (x : Bytes) : unstuff c (stuff c x ++ [c.esc]) = none := by
  rw [unstuff_stuff_append hc, unstuff_esc, Option.map_none]

theorem cut_pair {s t : Bytes} {a b : Byte} (h : s ++ t = [a, b]) : s = [] ∨ s = [a] ∨ s = [a, b] := by
  rcases List.append_eq_cons_iff.mp h with ⟨rfl, -⟩ | ⟨s', rfl, hb⟩
  · exact .inl rfl
  · rcases List.append_eq_singleton_iff.mp hb.symm with ⟨rfl, -⟩ | ⟨rfl, -⟩
    · exact .inr (.inl rfl)
    · exact .inr (.inr rfl)

/-- A cut falls before, inside or after the escape sequence of one byte. -/
theorem cut_stuffByte {s t : Bytes} {b : Byte} (h : s ++ t = stuffByte c b) :
    s = [] ∨ s = [c.esc] ∨ s = stuffByte c b := by
  rcases stuffByte_cases (c := c) b with ⟨-, he⟩ | ⟨-, -, he⟩ | ⟨-, -, he⟩ <;> rw [he] at h ⊢
  · exact cut_pair h
  · exact cut_pair h
  · exact (List.append_eq_singleton_iff.mp h).imp And.left fun hb => .inr hb.1

/-- A cut of a stuffed sequence falls between two escape sequences or behind the `ESC` of one. -/
theorem cut_stuff {s t z : Bytes} (h : s ++ t = stuff c z) :
    (∃ x, s = stuff c x) ∨ ∃ x, s = stuff c x ++ [c.esc] := by
  induction z generalizing s with
  | nil => exact .inl ⟨[], (List.append_eq_nil_iff.mp h).1⟩
  | cons b z ih =>
    rcases List.append_eq_append_iff.mp h with ⟨s', hb, -⟩ | ⟨s', rfl, hz⟩
    · rcases cut_stuffByte hb.symm with rfl | rfl | rfl
      · exact .inl ⟨[], rfl⟩
      · exact .inr ⟨[], rfl⟩
      · exact .inl ⟨[b], (List.append_nil _).symm⟩
    · rcases ih hz.symm with ⟨x, rfl⟩ | ⟨x, rfl⟩
      · exact .inl ⟨b :: x, rfl⟩
      · exact .inr ⟨b :: x, (List.append_assoc _ _ _).symm⟩

/-- `unstuff` of two pieces is `unstuff` of each, unless the cut falls behind an `ESC`. -/
theorem unstuff_append (hc : c.Legal) {s t : Bytes}
    (hcut : ¬ ∃ u, s = u ++ [c.esc] ∧ unstuff c u ≠ none) :
    unstuff c (s ++ t) = (unstuff c s).bind (fun x => (unstuff c t).map (x ++ ·)) := by
  cases hs : unstuff c s with
  | some x =>
    rw [(unstuff_eq_some_iff hc).mp hs, unstuff_stuff_append hc]
    rfl
  | none =>
    cases hst : unstuff c (s ++ t) with
    | none => rfl
    | some z =>
      rcases cut_stuff ((unstuff_eq_some_iff hc).mp hst) with ⟨x, rfl⟩ | ⟨x, rfl⟩
      · rw [unstuff_stuff hc] at hs; cases hs
      · exact absurd ⟨stuff c x, rfl, by simp [unstuff_stuff hc]⟩ hcut

/-- Settles O18: `unstuff` takes a stuffed sequence off the front, and what it accepts is a stuffed
sequence, whose cuts fall between two escape sequences or behind an `ESC`. -/
theorem stuffingRoundTripLaws : Obligations.StuffingRoundTripLaws := by
  intro c hc
  refine ⟨unstuff_stuff hc, boundary_notMem_stuff hc, fun _ _ => stuff_of_unstuff hc.1, stuff_append,
    fun _ _ => unstuff_append hc, fun u hu => ?_, [], [c.escBoundary], [c.boundary], by simp [unstuff_nil], ?_⟩
  · obtain ⟨x, hx⟩ := Option.ne_none_iff_exists'.mp hu
    rw [(unstuff_eq_some_iff hc).mp hx]
    exact unstuff_stuff_append_esc hc x
  · exact (unstuff_esc_cons hc.1 _ _).trans (if_pos rfl)

/-! ## `span` (R153) -/

theorem afterFirst_eq_none_iff {r : Bytes} : afterFirst c r = none ↔ c.boundary ∉ r := by
  induction r with
  | nil => simp [afterFirst]
  | cons b r ih =>
    rw [afterFirst]
    split
    · next hb => simp [hb]
    · next hb => simp [ih, Ne.symm hb]

theorem afterFirst_append {a : Bytes} (ha : c.boundary ∉ a) (x : Bytes) :
    afterFirst c (a ++ c.boundary :: x) = some x := by
  induction a with
  | nil => simp [afterFirst]
  | cons b a ih =>
    rw [List.mem_cons, not_or] at ha
    rw [List.cons_append, afterFirst, if_neg (Ne.symm ha.1), ih ha.2]

theorem afterFirst_eq_some_iff {r x : Bytes} :
    afterFirst c r = some x ↔ ∃ a, r = a ++ c.boundary :: x ∧ c.boundary ∉ a := by
  refine ⟨fun h => ?_, fun ⟨a, hr, ha⟩ => hr ▸ afterFirst_append ha x⟩
  have hmem : c.boundary ∈ r := by
    by_contra hr
    rw [afterFirst_eq_none_iff.mpr hr] at h
    cases h
  obtain ⟨a, y, rfl, ha⟩ := List.eq_append_cons_of_mem hmem
  rw [afterFirst_append ha] at h
  exact ⟨a, by rw [Option.some.inj h], ha⟩

theorem beforeLast_eq_none_iff {r : Bytes} : beforeLast c r = none ↔ c.boundary ∉ r := by
  induction r with
  | nil => simp [beforeLast]
  | cons b r ih =>
    rw [List.mem_cons, not_or, ← ih, beforeLast]
    cases beforeLast c r with
    | some p => simp
    | none => simp [eq_comm]

theorem beforeLast_append (p : Bytes) {z : Bytes} (hz : c.boundary ∉ z) :
    beforeLast c (p ++ c.boundary :: z) = some p := by
  induction p with
  | nil => simp [beforeLast, beforeLast_eq_none_iff.mpr hz]
  | cons b p ih => simp [beforeLast, ih]

theorem beforeLast_eq_some_iff {r p : Bytes} :
    beforeLast c r = some p ↔ ∃ z, r = p ++ c.boundary :: z ∧ c.boundary ∉ z := by
  refine ⟨fun h => ?_, fun ⟨z, hr, hz⟩ => hr ▸ beforeLast_append p hz⟩
  induction r generalizing p with
  | nil => cases h
  | cons b r ih =>
    rw [beforeLast] at h
    split at h
    · next q hq =>
      cases h
      obtain ⟨z, rfl, hz⟩ := ih hq
      exact ⟨z, rfl, hz⟩
    · next hnone =>
      split at h <;> cases h
      next hb => exact ⟨r, by rw [hb, List.nil_append], beforeLast_eq_none_iff.mp hnone⟩

/-- `span` by the first and the last boundary byte. -/
theorem span_eq_some_iff {r p : Bytes} : span c r = some p ↔
    ∃ a z, r = a ++ [c.boundary] ++ p ++ [c.boundary] ++ z ∧ c.boundary ∉ a ∧ c.boundary ∉ z := by
  simp only [span, Option.bind_eq_some_iff, afterFirst_eq_some_iff, beforeLast_eq_some_iff]
  constructor
  · rintro ⟨_, ⟨a, rfl, ha⟩, z, rfl, hz⟩
    exact ⟨a, z, by simp, ha, hz⟩
  · rintro ⟨a, z, rfl, ha, hz⟩
    exact ⟨p ++ c.boundary :: z, ⟨a, by simp, ha⟩, z, rfl, hz⟩

theorem span_eq_none_iff {r : Bytes} : span c r = none ↔ r.count c.boundary < 2 := by
  cases hr : afterFirst c r with
  | none =>
    have hcount : r.count c.boundary = 0 := List.count_eq_zero.mpr (afterFirst_eq_none_iff.mp hr)
    simp [span, hr, hcount]
  | some x =>
    obtain ⟨a, rfl, ha⟩ := afterFirst_eq_some_iff.mp hr
    have hcount : (a ++ c.boundary :: x).count c.boundary = x.count c.boundary + 1 := by
      simp [List.count_eq_zero.mpr ha]
    rw [span, hr, Option.bind_some, beforeLast_eq_none_iff, ← List.count_eq_zero, hcount]
    omega

/-- The delimiters of `wrap` are its first and its last boundary byte. -/
theorem span_wrap (s : Bytes) : span c (wrap c s) = some (stuff c s) :=
  span_eq_some_iff.mpr ⟨[], [], by simp [wrap], List.not_mem_nil, List.not_mem_nil⟩

/-- A boundary byte makes a sequence `Bad`, wherever it stands. -/
theorem unstuff_eq_none_of_boundary_mem (hc : c.Legal) {y : Bytes} (hy : c.boundary ∈ y) :
    unstuff c y = none := by
  cases hx : unstuff c y with
  | none => rfl
  | some x => exact absurd ((unstuff_eq_some_iff hc).mp hx ▸ hy) (boundary_notMem_stuff hc x)

/-- Boundary bytes beyond the two delimiters lie in the span. -/
theorem boundary_mem_span {r p : Bytes} (h : span c r = some p) (hr : 3 ≤ r.count c.boundary) :
    c.boundary ∈ p := by
  obtain ⟨a, z, rfl, ha, hz⟩ := span_eq_some_iff.mp h
  have hcount : (a ++ [c.boundary] ++ p ++ [c.boundary] ++ z).count c.boundary = p.count c.boundary + 2 := by
    simp [List.count_append, List.count_eq_zero.mpr ha, List.count_eq_zero.mpr hz]
  exact List.count_pos_iff.mp (by omega)

/-- Settles O19: the two halves of `span` find the first and the last boundary byte; a stuffed body has
none, and any other in the span makes it `Bad`. -/
theorem spanLiesBetweenFirstAndLastBoundary : Obligations.SpanLiesBetweenFirstAndLastBoundary := by
  intro c
  refine ⟨fun _ => rfl, fun _ _ => span_eq_some_iff, fun _ => span_eq_none_iff, fun hc s => ?_,
    fun hc _ _ hp hr => unstuff_eq_none_of_boundary_mem hc (boundary_mem_span hp hr)⟩
  rw [span_wrap, Option.bind_some, unstuff_stuff hc]

end

/-! ## The commands (R154 to R157) -/

section
variable {s : State}

/-- A command that delivers a result and consumes its operand, with no fault latched. -/
theorem command_emitConsume_clear (y : Bytes) (hs : s.err = 0) :
    command s (emitConsume y s) = .next (deliver y s) := by
  rcases emitConsume_cases y s with ⟨hfits, hok⟩ | ⟨hover, herror⟩
  · rw [csf_obufCap] at hfits
    rw [hok, command_clear_ok hs, deliver, if_neg (Nat.not_lt.mpr hfits)]
    rfl
  · rw [csf_obufCap] at hover
    rw [herror, command_clear_error hs, deliver, if_pos hover]
    rfl

theorem exec_encode (hs : s.err = 0) : exec .encode s = .next (deliver (stuff csf s.ibuf) s) :=
  command_emitConsume_clear _ hs

theorem exec_decode_bad (hs : s.err = 0) (h : unstuff csf s.ibuf = none) :
    exec .decode s = .next (latch 5 s) := by
  change execDecode s = _
  rw [execDecode, h]
  exact command_clear_error hs

theorem exec_decode_accepted {x : Bytes} (hs : s.err = 0) (h : unstuff csf s.ibuf = some x) :
    exec .decode s = .next (deliver x s) := by
  change execDecode s = _
  rw [execDecode, h]
  exact command_emitConsume_clear x hs

theorem exec_wrap (hs : s.err = 0) : exec .wrap s = .next (deliver (wrap csf s.ibuf) s) :=
  command_emitConsume_clear _ hs

theorem exec_unwrap_noFrame (hs : s.err = 0) (h : span csf s.ibuf = none) :
    exec .unwrap s = .next (latch 6 s) := by
  change execUnwrap s = _
  rw [execUnwrap, h]
  exact command_clear_error hs

theorem exec_unwrap_bad {p : Bytes} (hs : s.err = 0) (hp : span csf s.ibuf = some p)
    (h : unstuff csf p = none) : exec .unwrap s = .next (latch 5 s) := by
  change execUnwrap s = _
  simp only [execUnwrap, hp, h]
  exact command_clear_error hs

theorem exec_unwrap_accepted {p x : Bytes} (hs : s.err = 0) (hp : span csf s.ibuf = some p)
    (h : unstuff csf p = some x) : exec .unwrap s = .next (deliver x s) := by
  change execUnwrap s = _
  simp only [execUnwrap, hp, h]
  exact command_emitConsume_clear x hs

end

/-- Settles O20: `ENCODE` always has a result, so room in `OBUF` decides. -/
theorem encodeStuffsInput : Obligations.EncodeStuffsInput :=
  ⟨onlyWord_of_formatZ rfl rfl, fun _ => exec_encode⟩

/-- Settles O21: the verdict of `unstuff` comes before the test on room. -/
theorem decodeUnstuffsInput : Obligations.DecodeUnstuffsInput :=
  ⟨onlyWord_of_formatZ rfl rfl, fun _ hs => ⟨exec_decode_bad hs, fun _ => exec_decode_accepted hs⟩⟩

/-- Settles O22: `WRAP` delivers the body between the decided boundary bytes. -/
theorem wrapDelimitsInput : Obligations.WrapDelimitsInput :=
  ⟨onlyWord_of_formatZ rfl rfl, fun _ => exec_wrap⟩

/-- Settles O23: `span` by its boundary bytes, then the verdict of `unstuff`, then the test on room. -/
theorem unwrapDeliversTheSpan : Obligations.UnwrapDeliversTheSpan := by
  refine ⟨onlyWord_of_formatZ rfl rfl, fun s hs =>
    ⟨fun hcount => exec_unwrap_noFrame hs (span_eq_none_iff.mpr hcount), fun a p z hr ha hz => ?_⟩⟩
  have hp : span csf s.ibuf = some p := span_eq_some_iff.mpr ⟨a, z, hr, ha, hz⟩
  exact ⟨exec_unwrap_bad hs hp, fun _ => exec_unwrap_accepted hs hp⟩

end Sys2Proof.Machine
end

section
/-!
The packet framer of 42_framer.md: the words of `FRAME` and `FRAMES` and the frame they append (rules
R170 to R175), and the table of outcomes of `PARSE` with the header checksum (rules R176 to R179).
-/

open Sys2Proof.Claims

namespace Sys2Proof.Machine

/-! ## The command words of the framer (R91) -/

section
variable (rel dip : Bool) (kind : Kind) (seq : SeqNum)

/-- A word of `FRAME`, and with `seq` 0 one of `FRAMES`: `RSV`, `OP` and the reserved bits above `kind` are
`op`, then the fields of R91. -/
def framerWord (op : BitVec 20) : Word :=
  op ++ kind ++ BitVec.ofBool rel ++ BitVec.ofBool dip ++ 0#3 ++ seq

variable {op : BitVec 20}

/-- A mask of ones in `op` and the reserved bits that clears `seq` keeps `op` alone. -/
theorem framerWord_and {m : BitVec 3} (hm : seq &&& m = 0#3) :
    framerWord rel dip kind seq op &&& (BitVec.allOnes 20 ++ 0#4 ++ 0#1 ++ 0#1 ++ BitVec.allOnes 3 ++ m) =
      framerWord false false 0 0 op := by
  have hseq : framerWord rel dip kind seq op &&&
      (BitVec.allOnes 20 ++ 0#4 ++ 0#1 ++ 0#1 ++ BitVec.allOnes 3 ++ m) =
      ((op ++ kind ++ BitVec.ofBool rel ++ BitVec.ofBool dip ++ 0#3) &&&
        (BitVec.allOnes 20 ++ 0#4 ++ 0#1 ++ 0#1 ++ BitVec.allOnes 3)) ++ (seq &&& m) := BitVec.and_append
  rw [hseq, hm]
  simp only [BitVec.and_append, BitVec.and_allOnes, BitVec.and_zero]
  rfl

/-- Side by side is shifted to its place and joined, at every width. -/
theorem setWidth_append_eq_or {m n : Nat} (w : Nat) (x : BitVec m) (y : BitVec n) :
    (x ++ y).setWidth w = (x.setWidth w <<< n) ||| y.setWidth w := by
  ext i hi
  by_cases h : i < n
  · simp [h, BitVec.getLsbD_append]
  · simp [h, BitVec.getLsbD_append, BitVec.getLsbD_of_ge y i (Nat.le_of_not_lt h)]

theorem framerWord_eq_or : framerWord rel dip kind seq op =
    (op.setWidth 32 <<< 12) ||| (kind.setWidth 32 <<< 8) ||| ((BitVec.ofBool rel).setWidth 32 <<< 7)
      ||| ((BitVec.ofBool dip).setWidth 32 <<< 6) ||| seq.setWidth 32 := by
  rw [← BitVec.setWidth_eq (framerWord rel dip kind seq op)]
  simp only [framerWord, setWidth_append_eq_or, BitVec.shiftLeft_or_distrib, ← BitVec.shiftLeft_add]
  simp

theorem bitOf_rel_framerWord : bitOf (framerWord rel dip kind seq op) 7 = rel := by
  simp only [framerWord, bitOf, BitVec.getLsbD_append]
  simp

theorem bitOf_dip_framerWord : bitOf (framerWord rel dip kind seq op) 6 = dip := by
  simp only [framerWord, bitOf, BitVec.getLsbD_append]
  simp

theorem framerWord_extract_kind : (framerWord rel dip kind seq op).extractLsb' 8 4 = kind := by
  unfold framerWord
  repeat rw [BitVec.extractLsb'_append_eq_of_le (by decide)]
  exact BitVec.extractLsb'_append_eq_right

theorem framerWord_extract_seq : (framerWord rel dip kind seq op).extractLsb' 0 3 = seq :=
  BitVec.extractLsb'_append_eq_right

theorem decodeCommand_frame : decodeCommand (framerWord rel dip kind seq 0x00300) =
    some (.frame rel dip kind seq) := by
  have hrow : (⟨0x00300000, 0xFFFFF038, fun w =>
      .frame (bitOf w 7) (bitOf w 6) (w.extractLsb' 8 4) (w.extractLsb' 0 3)⟩ : CommandRow) ∈ commandRows := by
    simp [commandRows]
  refine (decodeCommand_of_mem hrow (framerWord_and rel dip kind seq (m := 0) BitVec.and_zero)).trans ?_
  simp only [bitOf_rel_framerWord, bitOf_dip_framerWord, framerWord_extract_kind, framerWord_extract_seq]

theorem decodeCommand_frames : decodeCommand (framerWord rel dip kind 0#3 0x00310) =
    some (.frames rel dip kind) := by
  have hrow : (⟨0x00310000, 0xFFFFF03F, fun w =>
      .frames (bitOf w 7) (bitOf w 6) (w.extractLsb' 8 4)⟩ : CommandRow) ∈ commandRows := by
    simp [commandRows]
  refine (decodeCommand_of_mem hrow (framerWord_and rel dip kind 0#3 (m := 7) BitVec.zero_and)).trans ?_
  simp only [bitOf_rel_framerWord, bitOf_dip_framerWord, framerWord_extract_kind]

end

/-! ## Reserved bits (R93) -/

/-- A field of `ARG` whose bits are all reserved has to be 0. -/
theorem illegal_of_reservedField {v : Word} {m : BitVec 16} {k n : Nat} (hm : reservedArg (opField v) = some m)
    (hfield : k + n ≤ 16) (hones : m.extractLsb' k n = BitVec.allOnes n) (hne : v.extractLsb' k n ≠ 0) :
    Illegal v := by
  by_contra hv
  obtain ⟨-, m', hm', harg, -⟩ := not_illegal_iff.mp hv
  obtain rfl : m = m' := Option.some.inj (hm.symm.trans hm')
  apply hne
  calc v.extractLsb' k n = (v.extractLsb' 0 16).extractLsb' k n := by
        rw [BitVec.extractLsb'_extractLsb'_of_le hfield]
    _ = (v.extractLsb' 0 16 &&& m).extractLsb' k n := by
        rw [BitVec.extractLsb'_and, hones, BitVec.and_allOnes]
    _ = 0 := by rw [harg]; exact BitVec.extractLsb'_zero

/-! ## The frame in numbers (R100 to R104) -/

section
variable (rel dip : Bool) (kind : Kind) (seq : SeqNum)

theorem checksum_eq (h0 h1 h2 : Byte) : checksum h0 h1 h2 = headerChecksum h0 h1 h2 :=
  BitVec.eq_of_toNat_eq (by rw [headerChecksum_toNat, checksum, BitVec.toNat_ofNat]; omega)

/-- The header of R100 in numbers is the one the framer makes; its length field keeps 12 bits of `n`. -/
theorem header_eq_mkhdr (n : Nat) : header rel dip kind seq n = mkhdr rel dip 0 seq kind (BitVec.ofNat 12 n) := by
  have h0 : BitVec.ofNat 8 (rel.toNat * 128 + dip.toNat * 64 + seq.toNat) = headerByte0 rel dip 0 seq :=
    BitVec.eq_of_toNat_eq (by
      have hbyte := (headerByte0 rel dip 0 seq).isLt
      have hack : (0 : SeqNum).toNat * 8 = 0 := rfl
      rw [headerByte0_toNat, hack] at hbyte ⊢
      rw [BitVec.toNat_ofNat]
      exact Nat.mod_eq_of_lt hbyte)
  have h1 : BitVec.ofNat 8 (n % 16 * 16 + kind.toNat) = headerByte1 kind (BitVec.ofNat 12 n) :=
    BitVec.eq_of_toNat_eq (by
      have hkind := kind.isLt
      rw [headerByte1_toNat, BitVec.toNat_ofNat, BitVec.toNat_ofNat]
      omega)
  have h2 : BitVec.ofNat 8 (n / 16 % 256) = headerByte2 (BitVec.ofNat 12 n) :=
    BitVec.eq_of_toNat_eq (by
      rw [headerByte2_toNat, BitVec.toNat_ofNat, BitVec.toNat_ofNat]
      omega)
  rw [mkhdr_eq, ← h0, ← h1, ← h2, ← checksum_eq]
  rfl

theorem body_eq_frameBody (p : Bytes) : body rel dip kind seq p = frameBody seq dip rel kind p := by
  rw [body, header_eq_mkhdr, frameBody]

theorem bodyCrc_eq_frame (p : Bytes) : bodyCrc rel dip kind seq p = (frame csf seq dip rel kind p).2 := by
  rw [bodyCrc, body_eq_frameBody]
  rfl

theorem wire_eq_frame (p : Bytes) : wire rel dip kind seq p = (frame csf seq dip rel kind p).1 := by
  rw [frame_bytes_eq, ← body_eq_frameBody]
  rfl

/-! ## `FRAME` and `FRAMES` (R172, R174, R175) -/

/-- Everything `doFrame` can do, beside what R172 says of it: both fault, or both frame. -/
theorem doFrame_framed (s : State) :
    (∃ f, doFrame seq dip rel kind s = .error f ∧ framed rel dip kind seq s = raise f s) ∨
    (doFrame seq dip rel kind s = .ok (framed rel dip kind seq s) ∧ (framed rel dip kind seq s).err = s.err) := by
  rw [framed, wire_eq_frame, bodyCrc_eq_frame]
  rcases doFrame_cases seq dip rel kind s with ⟨hlong, he⟩ | ⟨hlen, hover, he⟩ | ⟨hlen, hfits, he⟩
  · rw [csf_maxPayload] at hlong
    rw [if_pos hlong]
    exact .inl ⟨_, he, rfl⟩
  · rw [csf_maxPayload] at hlen
    rw [csf_obufCap] at hover
    rw [if_neg (Nat.not_lt.mpr hlen), if_pos hover]
    exact .inl ⟨_, he, rfl⟩
  · rw [csf_maxPayload] at hlen
    rw [csf_obufCap] at hfits
    rw [if_neg (Nat.not_lt.mpr hlen), if_neg (Nat.not_lt.mpr hfits)]
    exact .inr ⟨he, rfl⟩

theorem exec_frame {s : State} (hs : s.err = 0) :
    exec (.frame rel dip kind seq) s = .next (framed rel dip kind seq s) := by
  change command s (doFrame seq dip rel kind s) = _
  rcases doFrame_framed rel dip kind seq s with ⟨f, herror, hframed⟩ | ⟨hok, -⟩
  · rw [herror, hframed, command_clear_error hs]
  · rw [hok, command_clear_ok hs]

/-- The new number of the counter is kept only when the frame was produced. -/
theorem exec_frames {s : State} (hs : s.err = 0) :
    exec (.frames rel dip kind) s =
      .next (if (framed rel dip kind (nextSeq csf s.seq) s).err = 0
        then { framed rel dip kind (nextSeq csf s.seq) s with seq := nextSeq csf s.seq }
        else framed rel dip kind (nextSeq csf s.seq) s) := by
  change command s ((doFrame (nextSeq csf s.seq) dip rel kind s).map _) = _
  rcases doFrame_framed rel dip kind (nextSeq csf s.seq) s with ⟨f, herror, hframed⟩ | ⟨hok, herr⟩
  · rw [herror, hframed, raise_err, if_neg (code_ne_zero f)]
    exact command_clear_error hs
  · rw [hok, herr, if_pos hs]
    exact command_clear_ok hs

end

/-- Settles O26: the fields of the word side by side, the fields R91 reserves, and R172's frame in numbers. -/
theorem frameCommandAppendsFrame : Obligations.FrameCommandAppendsFrame := by
  refine ⟨fun rel dip kind seq => decode_cmdWrite_of_some ?_, fun v hop hres => raisesIllegal_of_illegal ?_,
    fun rel dip kind seq s => exec_frame rel dip kind seq⟩
  · have hop : (0x00300#20).setWidth 32 <<< 12 = 0x00300000#32 := rfl
    rw [← hop, ← framerWord_eq_or]
    exact decodeCommand_frame rel dip kind seq
  · have hm : reservedArg (opField v) = some 0xF038 := hop ▸ rfl
    rcases hres with h | h | h
    · exact illegal_of_reservedField hm (by decide) rfl h
    · exact illegal_of_reservedField hm (by decide) rfl h
    · exact .inl h

/-- Settles O27: as `FRAME`, with the advanced counter for the operand `seq`, whose place is reserved. -/
theorem framesCommandAdvancesSeq : Obligations.FramesCommandAdvancesSeq := by
  refine ⟨fun rel dip kind => decode_cmdWrite_of_some ?_, fun v hop hres => raisesIllegal_of_illegal ?_,
    fun rel dip kind s => exec_frames rel dip kind⟩
  · have hop : (0x00310#20).setWidth 32 <<< 12 = 0x00310000#32 := rfl
    have hword := framerWord_eq_or rel dip kind 0#3 (op := 0x00310#20)
    rw [hop, BitVec.setWidth_zero, BitVec.or_zero] at hword
    rw [← hword]
    exact decodeCommand_frames rel dip kind
  · have hm : reservedArg (opField v) = some 0xF03F := hop ▸ rfl
    rcases hres with h | h | h
    · exact illegal_of_reservedField hm (by decide) rfl h
    · exact illegal_of_reservedField hm (by decide) rfl h
    · exact .inl h

/-! ## The outcomes of `PARSE` (R176, R177) -/

section
variable {c : Params} {r p : Bytes}

theorem parse_of_noSpan (h : span c r = none) : parse c r = ⟨none, none, some .noFrame⟩ := by
  simp only [parse, h]

theorem parse_of_badSpan (hp : span c r = some p) (h : unstuff c p = none) :
    parse c r = ⟨none, none, some .badStuffing⟩ := by
  simp only [parse, hp, h]

theorem parse_of_decoded {d : Bytes} (hp : span c r = some p) (h : unstuff c p = some d) :
    parse c r = parseDecoded d := by
  simp only [parse, hp, h]

theorem parseDecoded_short {d : Bytes} (hmin : 1 ≤ d.length) (hmax : d.length ≤ 3) :
    parseDecoded d = ⟨some d.length, none, some .malformedHeader⟩ := by
  rcases parseDecoded_cases d with ⟨rfl, -⟩ | ⟨-, -, he⟩ | ⟨d0, d1, d2, d3, t, rfl, -⟩
  · exact absurd hmin (by decide)
  · exact he
  · simp at hmax; omega

end

section
variable (d0 d1 d2 d3 : Byte) (r : Bytes)

theorem parseDecoded_header : parseDecoded (d0 :: d1 :: d2 :: d3 :: r) =
    ⟨some (r.length + 4), some (headerFields d0 d1 d2 d3),
      if checksumValid d0 d1 d2 d3 then none else some .malformedHeader⟩ := rfl

/-- The image of a header in `HDR` (R28) is its first three bytes, the first lowest, under the two flags. -/
theorem hdrWord_headerFields (valid : Bool) : hdrWord valid (headerFields d0 d1 d2 d3) =
    BitVec.ofBool valid ++ BitVec.ofBool (checksumValid d0 d1 d2 d3) ++ d2 ++ d1 ++ d0 := by
  apply BitVec.eq_of_toNat_eq
  simp only [hdrWord, headerFields, toNat_append_eq, BitVec.toNat_ofBool, BitVec.getLsbD,
    Nat.toNat_testBit, BitVec.extractLsb'_toNat, Nat.shiftRight_eq_div_pow]
  omega

end

section
variable {s : State}

/-- `PARSE` keeps its result registers when it raises. -/
theorem exec_parse_fault {v : ParseResult} {f : Cause} (hs : s.err = 0) (hv : parse csf s.ibuf = v)
    (hf : v.fault = some f) : exec .parse s = .next (raise f (parseResults v s)) := by
  subst hv
  change execParse s = _
  simp only [execParse, hf, gated_clear _ hs]

theorem exec_parse_ok {v : ParseResult} (hs : s.err = 0) (hv : parse csf s.ibuf = v) (hf : v.fault = none) :
    exec .parse s = .next (consume (parseResults v s)) := by
  subst hv
  change execParse s = _
  simp only [execParse, hf, gated_clear _ hs]

variable {p r : Bytes} {d0 d1 d2 d3 : Byte}

/-- A header whose bytes do not sum to 0 stands in `HDR` with both flags clear. -/
theorem exec_parse_badChecksum (hs : s.err = 0) (hp : span csf s.ibuf = some p)
    (hd : unstuff csf p = some (d0 :: d1 :: d2 :: d3 :: r)) (hsum : d0 + d1 + d2 + d3 ≠ 0) :
    exec .parse s = .next { latch 8 s with
      hdr := 0#2 ++ d2 ++ d1 ++ d0, dlen := BitVec.ofNat 14 (r.length + 4) } := by
  have hinvalid : checksumValid d0 d1 d2 d3 = false := beq_eq_false_iff_ne.mpr hsum
  have hparse := (parse_of_decoded hp hd).trans (parseDecoded_header d0 d1 d2 d3 r)
  have himage : hdrWord false (headerFields d0 d1 d2 d3) = 0#2 ++ d2 ++ d1 ++ d0 := by
    rw [hdrWord_headerFields, hinvalid]
    rfl
  rw [hinvalid] at hparse
  rw [exec_parse_fault hs hparse rfl, ← himage]
  rfl

theorem exec_parse_header (hs : s.err = 0) (hp : span csf s.ibuf = some p)
    (hd : unstuff csf p = some (d0 :: d1 :: d2 :: d3 :: r)) (hsum : d0 + d1 + d2 + d3 = 0) :
    exec .parse s = .next { s with
      ibuf := [], hdr := 3#2 ++ d2 ++ d1 ++ d0, dlen := BitVec.ofNat 14 (r.length + 4) } := by
  have hvalid : checksumValid d0 d1 d2 d3 = true := beq_iff_eq.mpr hsum
  have hparse := (parse_of_decoded hp hd).trans (parseDecoded_header d0 d1 d2 d3 r)
  have himage : hdrWord true (headerFields d0 d1 d2 d3) = 3#2 ++ d2 ++ d1 ++ d0 := by
    rw [hdrWord_headerFields, hvalid]
    rfl
  rw [hvalid] at hparse
  rw [exec_parse_ok hs hparse rfl, ← himage]
  rfl

end

/-- Settles O29: the span by its boundary bytes, the verdict of `unstuff`, then the length and the sum of
what is decoded. -/
theorem parseOutcomes : Obligations.ParseOutcomes := by
  refine ⟨onlyWord_of_formatZ rfl rfl, fun s hs => ⟨fun hcount => ?_, fun a p z hr ha hz => ?_⟩⟩
  · exact exec_parse_fault hs (parse_of_noSpan (span_eq_none_iff.mpr hcount)) rfl
  have hp : span csf s.ibuf = some p := span_eq_some_iff.mpr ⟨a, z, hr, ha, hz⟩
  refine ⟨fun hbad => ?_, fun hempty => ?_, fun d hd hmin hmax => ?_, fun d0 d1 d2 d3 r hd => ?_⟩
  · exact exec_parse_fault hs (parse_of_badSpan hp hbad) rfl
  · exact exec_parse_fault hs (parse_of_decoded hp hempty) rfl
  · exact exec_parse_fault hs ((parse_of_decoded hp hd).trans (parseDecoded_short hmin hmax)) rfl
  · exact ⟨exec_parse_badChecksum hs hp hd, exec_parse_header hs hp hd⟩

/-! ## The header checksum (R179) -/

/-- What is decoded of a frame is its body and its CRC. -/
theorem decoded_frame {c : Params} (hc : c.Legal) (seq : SeqNum) (dip rel : Bool) (kind : Kind) (p : Bytes) :
    (span c (frame c seq dip rel kind p).1).bind (unstuff c) =
      some (frameBody seq dip rel kind p ++ le16 (frame c seq dip rel kind p).2) := by
  rw [frame_bytes_eq, span_wrap, Option.bind_some, unstuff_stuff hc]
  rfl

/-- Settles O31: a frame decodes to its body, whose header carries the negated sum of its first three bytes;
`PARSE` tests the same sum. -/
theorem headerChecksumInvariant : Obligations.HeaderChecksumInvariant := by
  refine ⟨fun c seq dip rel kind p hc _ => ?_, fun s d0 d1 d2 d3 r hs hdecoded hsum => ?_⟩
  · exact ⟨_, _, _, _, _, decoded_frame hc seq dip rel kind p,
      (checksumValid_iff _ _ _ _).mp (checksumValid_headerChecksum _ _ _)⟩
  · obtain ⟨p, hp, hd⟩ := Option.bind_eq_some_iff.mp hdecoded
    have hne : d0 + d1 + d2 + d3 ≠ 0 := fun h => hsum ((checksumValid_iff _ _ _ _).mp (beq_iff_eq.mpr h))
    exact ⟨_, exec_parse_badChecksum hs hp hd hne, rfl⟩

end Sys2Proof.Machine
end

section
/-!
Payload marshalling of 43_payload.md: the seven `MKPL` commands as cases of R201 (rules R202 to R208),
then the least code that `CLASSIFY` searches for (rule R209).
-/

open Sys2Proof.Claims

namespace Sys2Proof.Machine

/-! ## The payloads of the engine's opcodes (R200, R107) -/

section
variable (x : Bytes) (s : State)

theorem payloadOf_init : payloadOf csf .init x s = [0x01, 0x00, 0x00, 0x00] ++ x ++ [0x00, 0x00] := rfl

theorem payloadOf_data : payloadOf csf .data x s = [0x04, 0x00, 0x00, 0x00] ++ x := rfl

theorem payloadOf_init_length : (payloadOf csf .init x s).length = x.length + 6 := by
  simp [payloadOf_init]

theorem payloadOf_data_length : (payloadOf csf .data x s).length = x.length + 4 := by
  simp [payloadOf_data]

/-- `START` has the longest of the payloads without a body: its opcode and four registers. -/
theorem payloadOf_bodyless_length_le {c : Params} {k : PacketType} (hk : takesBody k = false) :
    (payloadOf c k x s).length ≤ 20 := by
  cases k with
  | init | data => cases hk
  | start => exact Nat.le_refl 20
  | stopData | validateFirmware | activateAndReset | ping => exact Nat.le_add_right 4 16

end

/-! ## `MKPL` with no fault latched (R201) -/

section
variable {s : State} {k : PacketType}

/-- A type with a body can fault only for want of room in `IBUF`. -/
theorem command_marshal_body (hk : takesBody k = true) (hs : s.err = 0) : command s (marshal k s) =
    .next (if (payloadOf csf k s.ibuf s).length > 8204 then latch 2 s
      else { s with ibuf := payloadOf csf k s.ibuf s }) := by
  rcases marshal_cases k s with ⟨hnobody, -, -⟩ | ⟨-, hover, herror⟩ | ⟨-, hfits, hok⟩
  · cases hk.symm.trans hnobody
  · rw [csf_ibufCap] at hover
    rw [herror, command_clear_error hs, if_pos hover]
    rfl
  · rw [csf_ibufCap] at hfits
    rw [hok, command_clear_ok hs, if_neg (Nat.not_lt.mpr hfits)]

/-- A type without a body can fault only because there is one: its payload always fits. -/
theorem command_marshal_bodyless (hk : takesBody k = false) (hs : s.err = 0) :
    command s (marshal k s) = .next (bodyless (payloadOf csf k s.ibuf s) s) := by
  rcases marshal_cases k s with ⟨-, hne, herror⟩ | ⟨-, hover, -⟩ | ⟨hbody, -, hok⟩
  · rw [herror, command_clear_error hs, bodyless, if_neg hne]
    rfl
  · have hshort := payloadOf_bodyless_length_le s.ibuf s hk (c := csf)
    rw [csf_ibufCap] at hover
    omega
  · have hempty : s.ibuf = [] := hbody.resolve_left (by simp [hk])
    rw [hok, command_clear_ok hs, bodyless, if_pos hempty]

end

/-! ## The `MKPL` commands (R202 to R208) -/

/-- Settles O35: `INIT` takes a body and adds six bytes to it. -/
theorem mkplInitPrefixesAndPads : Obligations.MkplInitPrefixesAndPads := by
  refine ⟨decode_cmdWrite_of_some rfl, fun s hs => ?_⟩
  rw [← payloadOf_init_length s.ibuf s, ← payloadOf_init s.ibuf s]
  exact command_marshal_body rfl hs

/-- Settles O36: `START` takes no body. -/
theorem mkplStartLaysOutOperands : Obligations.MkplStartLaysOutOperands :=
  ⟨decode_cmdWrite_of_some rfl, fun _ => command_marshal_bodyless (k := .start) rfl⟩

/-- Settles O37: `DATA` takes a body and adds four bytes to it. -/
theorem mkplDataPrefixesOpcode : Obligations.MkplDataPrefixesOpcode := by
  refine ⟨decode_cmdWrite_of_some rfl, fun s hs => ?_⟩
  rw [← payloadOf_data_length s.ibuf s, ← payloadOf_data s.ibuf s]
  exact command_marshal_body rfl hs

/-- Settles O38: none of the four takes a body, and their payload is the opcode, whatever the OPEN ones are. -/
theorem mkplOpcodeOnlyPayloads : Obligations.MkplOpcodeOnlyPayloads :=
  ⟨decode_cmdWrite_of_some rfl, decode_cmdWrite_of_some rfl, decode_cmdWrite_of_some rfl,
    decode_cmdWrite_of_some rfl, fun _ hs =>
    ⟨command_marshal_bodyless (k := .stopData) rfl hs,
      command_marshal_bodyless (k := .validateFirmware) rfl hs,
      command_marshal_bodyless (k := .activateAndReset) rfl hs,
      command_marshal_bodyless (k := .ping) rfl hs⟩⟩

/-! ## The packet types and their codes (R108) -/

/-- A packet type stands in the list at the place of its code. -/
theorem packetTypes_getElem?_code (t : PacketType) : packetTypes[t.code.toNat]? = some t := by
  cases t <;> rfl

theorem mem_packetTypes (t : PacketType) : t ∈ packetTypes :=
  List.mem_of_getElem? (packetTypes_getElem?_code t)

theorem packetTypes_code_increasing :
    packetTypes.Pairwise (fun t u => t.code.toNat < u.code.toNat) := by decide

theorem PacketType.code_injective {t u : PacketType} (h : t.code = u.code) : t = u := by
  have ht := packetTypes_getElem?_code t
  rw [h, packetTypes_getElem?_code u] at ht
  exact (Option.some.inj ht).symm

theorem PacketType.code_ne_unknown (t : PacketType) : t.code ≠ unknownCode := fun h => by
  have hle := t.code_le
  rw [h] at hle
  exact absurd hle (by decide)

/-! ## `CLASSIFY` (R209) -/

theorem unle32_toNat (b0 b1 b2 b3 : Byte) : (unle32 b0 b1 b2 b3).toNat =
    b0.toNat + 256 * b1.toNat + 65536 * b2.toNat + 16777216 * b3.toNat := by
  simp only [unle32, toNat_append_eq]
  omega

/-- Everything the search for an opcode can give: the least code of a type that has it, or `Unknown`. -/
theorem codeOfOpcode_cases (c : Params) (v : Word) :
    (∃ t, codeOfOpcode c v = t.code ∧ opcodeOf c t = v ∧
      ∀ u, opcodeOf c u = v → t.code.toNat ≤ u.code.toNat) ∨
    (codeOfOpcode c v = unknownCode ∧ ∀ u, opcodeOf c u ≠ v) := by
  unfold codeOfOpcode
  split
  · next t hfind =>
    obtain ⟨ht, before, after, hsplit, hbefore⟩ := List.find?_eq_some_iff_append.mp hfind
    refine .inl ⟨t, rfl, eq_of_beq ht, fun u hu => ?_⟩
    have hmem := mem_packetTypes u
    have hincreasing := packetTypes_code_increasing
    rw [hsplit] at hmem hincreasing
    rcases List.mem_append.mp hmem with hu_before | hu_rest
    · exact absurd hu (by simpa using hbefore u hu_before)
    · obtain ⟨-, hrest, -⟩ := List.pairwise_append.mp hincreasing
      rcases List.mem_cons.mp hu_rest with rfl | hu_after
      · exact Nat.le_refl _
      · exact (List.rel_of_pairwise_cons hrest hu_after).le
  · next hfind =>
    exact .inr ⟨rfl, fun u hu => List.find?_eq_none.mp hfind u (mem_packetTypes u) (beq_iff_eq.mpr hu)⟩

theorem inferType_short {c : Params} {x : Bytes} (h : x.length < 4) : inferType c x = unknownCode := by
  match x with
  | [] | [_] | [_, _] | [_, _, _] => rfl
  | _ :: _ :: _ :: _ :: r => simp at h; omega

theorem inferType_opcode (c : Params) (b0 b1 b2 b3 : Byte) (r : Bytes) :
    inferType c (b0 :: b1 :: b2 :: b3 :: r) = codeOfOpcode c (unle32 b0 b1 b2 b3) := rfl

theorem exec_classify {s : State} (hs : s.err = 0) :
    exec .classify s = .next { s with ptype := inferType csf s.ibuf } := command_clear_ok hs

/-- Settles O39: the value of the first four bytes is searched for in the order of the codes, which are
distinct from each other and from 15. -/
theorem classifyFindsLeastCode : Obligations.ClassifyFindsLeastCode := by
  refine ⟨onlyWord_of_formatZ rfl rfl, fun s hs => ⟨_, exec_classify hs, inferType_short, ?_⟩⟩
  intro b0 b1 b2 b3 r hbytes v
  have hopcode : ∀ t, (opcodeOf csf t).toNat = v ↔ opcodeOf csf t = unle32 b0 b1 b2 b3 := fun t => by
    rw [BitVec.toNat_eq, unle32_toNat]
  simp only [hbytes, inferType_opcode, ne_eq, hopcode]
  rcases codeOfOpcode_cases csf (unle32 b0 b1 b2 b3) with ⟨t, hcode, ht, hleast⟩ | ⟨hunknown, hnone⟩
  · rw [hcode]
    refine ⟨fun u hu => PacketType.code_injective hu ▸ ⟨ht, hleast⟩, ?_, .inr ⟨t, rfl⟩⟩
    exact ⟨fun h => absurd h t.code_ne_unknown, fun h => absurd ht (h t)⟩
  · rw [hunknown]
    refine ⟨fun u hu => absurd hu.symm u.code_ne_unknown, ?_, .inl rfl⟩
    exact ⟨fun _ => hnone, fun _ => rfl⟩

end Sys2Proof.Machine
end

section
/-!
The control commands and the ports of 44_control_and_ports.md: `NOP`, `CLR_ERR`, `FLUSH` and `SEQ_CLR`
(rules R220 to R223), then `PUSH`, `POP`, `RD` and `WR` (rules R226 to R229).
-/

open Sys2Proof.Claims

namespace Sys2Proof.Machine

/-! ## `NOP` and `CLR_ERR` (R220, R221) -/

/-- Ignored or carried out, `NOP` is the same thing. -/
theorem exec_nop (s : State) : exec .nop s = .next s := by
  by_cases hs : s.err = 0
  · exact command_clear_ok hs
  · exact command_faulted _ hs

/-- Settles O41: a command of format `Z` that leaves the state on both sides of the gate. -/
theorem nopChangesNothing : Obligations.NopChangesNothing :=
  ⟨onlyWord_of_formatZ rfl rfl, exec_nop⟩

/-- Settles O42: `CLR_ERR` is not gated; any other word of its `OP` is illegal, and the faulted condition
ignores it as it ignores every word but that of `CLR_ERR`. -/
theorem clrErrClearsTheLatch : Obligations.ClrErrClearsTheLatch := by
  have honly : OnlyWord 0x00010000 .clrErr := onlyWord_of_formatZ rfl rfl
  have ⟨_, hother⟩ := honly
  refine ⟨honly, fun _ => rfl, fun s v hop hne => ⟨fun hs => ?_, fun hs => serve_cmdWrite_faulted hs hne⟩⟩
  obtain ⟨-, hraises⟩ := hother v hop hne
  exact hraises s hs

/-! ## `FLUSH` (R222) -/

/-- The four words of `FLUSH`. -/
theorem decode_flush (fi fo : Bool) : decode (cmdWrite (0x00020000#32 ||| ((BitVec.ofBool fo).setWidth 32 <<< 1)
    ||| (BitVec.ofBool fi).setWidth 32)) = .ok (.flush fi fo) := by
  cases fi <;> cases fo <;> rfl

/-- `FLUSH` reserves `RSV` and all of `ARG` but its two low bits. -/
theorem illegal_flush {v : Word} (hop : opField v = 0x02)
    (hres : v.extractLsb' 2 14 ≠ 0 ∨ v.extractLsb' 24 8 ≠ 0) : Illegal v := by
  have hm : reservedArg (opField v) = some 0xFFFC := hop ▸ rfl
  exact hres.elim (illegal_of_reservedField hm (by decide) rfl) .inl

/-- Settles O43: a command whose body cannot raise, at each of its four operands. -/
theorem flushEmptiesNamedBuffers : Obligations.FlushEmptiesNamedBuffers :=
  ⟨decode_flush, fun _ hop hres => raisesIllegal_of_illegal (illegal_flush hop hres), fun _ =>
    ⟨fun hs => ⟨command_clear_ok hs, command_clear_ok hs, command_clear_ok hs, command_clear_ok hs⟩,
      fun hs _ _ => command_faulted _ hs⟩⟩

/-! ## `SEQ_CLR` (R223) -/

/-- The frame of a payload of legal length always fits an empty `OBUF`. -/
theorem framed_emptyOutput {s : State} (rel dip : Bool) (kind : Kind) (seq : SeqNum) (hout : s.obuf = [])
    (hlen : s.ibuf.length ≤ 4095) : framed rel dip kind seq s = { s with
      obuf := wire rel dip kind seq s.ibuf, ibuf := [], crc := bodyCrc rel dip kind seq s.ibuf } := by
  have hwire : (wire rel dip kind seq s.ibuf).length ≤ 8204 := by
    obtain ⟨-, hmax⟩ := frame_length_bounds csf seq dip rel kind s.ibuf
    rw [wire_eq_frame]
    omega
  simp [framed, hout, Nat.not_lt.mpr hlen, Nat.not_lt.mpr hwire]

/-- Settles O44: the counter after 0 is 1, and the frame that carries it fits. -/
theorem seqClrRestartsTheCounter : Obligations.SeqClrRestartsTheCounter := by
  refine ⟨onlyWord_of_formatZ rfl rfl, fun s hs => ⟨command_clear_ok hs, fun rel dip kind hout hlen => ?_⟩⟩
  have hnext : nextSeq csf 0 = 1 := rfl
  have hframed := framed_emptyOutput (s := { s with seq := 0 }) rel dip kind 1 hout hlen
  rw [exec_frames (s := { s with seq := 0 }) rel dip kind hs, hnext, hframed, if_pos hs]

/-! ## `PUSH` (R226) -/

/-- The write of `DIN` keeps the low byte of its value (R65). -/
theorem serve_push (s : State) (v : Word) :
    serve (.regWrite 0x08 4 v) s = exec (.push (v.extractLsb' 0 8)) s := serve_ok s rfl

theorem exec_push {s : State} (b : Byte) (hs : s.err = 0) : exec (.push b) s =
    .next (if s.ibuf.length = 8204 then latch 2 s else { s with ibuf := s.ibuf ++ [b] }) := by
  change command s (if s.ibuf.length = 8204 then _ else _) = _
  split
  · exact command_clear_error hs
  · exact command_clear_ok hs

/-- Settles O45: `PUSH` goes through the gate, and faults only on a full `IBUF`. -/
theorem pushAppendsOrOverflows : Obligations.PushAppendsOrOverflows := fun s v =>
  ⟨fun hs => (serve_push s v).trans (command_faulted _ hs), exec_push _, serve_push s v⟩

/-! ## `POP` (R227) -/

theorem serve_pop (s : State) : serve (.regRead 0x0C 4) s = exec .pop s := serve_ok s rfl

theorem exec_pop_empty {s : State} (h : s.obuf = []) : exec .pop s = .next (answer 0 s) := by
  change execPop s = _
  simp only [execPop, h]

theorem exec_pop_cons {s : State} {b : Byte} {t : Bytes} (h : s.obuf = b :: t) :
    exec .pop s = .next (answer (popWord b) { s with obuf := t }) := by
  change execPop s = _
  simp only [execPop, h]

theorem popWord_eq_ofNat (b : Byte) : popWord b = BitVec.ofNat 32 (0x100 + b.toNat) := by
  apply BitVec.eq_of_toNat_eq
  have hflag : (0#23 ++ 1#1).toNat = 1 := rfl
  rw [popWord, toNat_append_eq, BitVec.toNat_ofNat]
  omega

/-- Settles O46: `POP` is not gated, so its two forms are those of `OBUF`. -/
theorem popRemovesFrontByte : Obligations.PopRemovesFrontByte := fun s =>
  ⟨serve_pop s, exec_pop_empty, fun b _ h => popWord_eq_ofNat b ▸ exec_pop_cons h⟩

/-! ## `RD` and the register map for reads (R61, R228) -/

theorem decodeRead_of_ne {r : Reg} (hr : r ≠ .dout) : decodeRead r = .rd r := by
  unfold decodeRead
  split
  · exact absurd rfl hr
  · rfl

theorem serve_rd {r : Reg} (s : State) (hr : r ≠ .dout) : serve (.regRead r.offset 4) s = exec (.rd r) s :=
  serve_ok s ((decode_wordRead r).trans (congrArg Except.ok (decodeRead_of_ne hr)))

theorem exec_rd {r : Reg} (s : State) (hr : r ≠ .dout) :
    exec (.rd r) s = .next (answer (readReg r s) s) := by
  refine if_pos ?_
  simp [Reg.rdOk, hr]

/-- A count within the capacity of a buffer fits its 14 bits (R32). -/
theorem countWord_toNat {n : Nat} (h : n ≤ 8204) : (countWord n).toNat = n := by
  simp [countWord]
  omega

/-- The flag `n = k` at the weight `w` of a word. -/
theorem toNat_beq_mul {n k : Nat} {p : Prop} [Decidable p] (h : n = k ↔ p) (w : Nat) :
    (n == k).toNat * w = if p then w else 0 := by
  by_cases hp : p
  · simp [h.mpr hp, hp]
  · simp [mt h.mp hp, hp]

/-- `STATUS` is `ERR` and its four flags at their weights (R31). -/
theorem statusWord_toNat (s : State) : (statusWord s).toNat = readValue .status s := by
  simp only [readValue, ← toNat_beq_mul List.length_eq_zero_iff, ← toNat_beq_mul Iff.rfl]
  simp only [statusWord, toNat_append_eq, BitVec.toNat_ofBool, BitVec.toNat_zero, csf_ibufCap, csf_obufCap]
  omega

theorem readReg_toNat {s : State} (r : Reg) (hin : s.ibuf.length ≤ 8204) (hout : s.obuf.length ≤ 8204) :
    (readReg r s).toNat = readValue r s := by
  cases r with
  | cmd | din | dout | reserved2C => rfl
  | status => exact statusWord_toNat s
  | icount => exact countWord_toNat hin
  | ocount => exact countWord_toNat hout
  | mode | sdsize | blsize | appsize => rfl
  | crc | seq | hdr | dlen | ptype => exact BitVec.toNat_setWidth_of_le (by decide)

/-- Settles O47: the word a read returns is its number in the table of R61, so the number is below 2^32. -/
theorem rdReturnsTheRegister : Obligations.RdReturnsTheRegister := by
  intro s r hr hin hout
  have hvalue := readReg_toNat r hin hout
  refine ⟨serve_rd s hr, ?_, hvalue ▸ (readReg r s).isLt⟩
  rw [← hvalue, BitVec.ofNat_toNat, BitVec.setWidth_eq]
  exact exec_rd s hr

/-! ## `WR` (R229) -/

theorem decodeWrite_of_ne {r : Reg} (v : Word) (hcmd : r ≠ .cmd) (hdin : r ≠ .din) :
    decodeWrite r v = .ok (.wr r v) := by
  unfold decodeWrite
  split
  · exact absurd rfl hcmd
  · exact absurd rfl hdin
  · rfl

theorem serve_wr {r : Reg} (s : State) (v : Word) (hcmd : r ≠ .cmd) (hdin : r ≠ .din) :
    serve (.regWrite r.offset 4 v) s = exec (.wr r v) s :=
  serve_ok s ((decode_wordWrite r v).trans (decodeWrite_of_ne v hcmd hdin))

/-- The nine offsets that ignore a write. -/
theorem exec_wr_ignored {r : Reg} (s : State) (v : Word)
    (hr : r ∈ [Reg.status, .dout, .seq, .hdr, .dlen, .icount, .ocount, .ptype, .reserved2C]) :
    exec (.wr r v) s = .next s := by
  fin_cases hr <;> rfl

/-- Settles O48: `WR` is not gated, so each register's next state is that of the map. -/
theorem wrWritesTheWritableRegisters : Obligations.WrWritesTheWritableRegisters := fun s v =>
  ⟨fun _ => serve_wr s v, rfl, rfl, rfl, rfl, rfl, fun _ => exec_wr_ignored s v⟩

end Sys2Proof.Machine
end

section
/-!
The faults of 60_exceptions.md: who may raise one (rule R290), that a fault is precise (rule R295), and
what the faulted condition leaves working (rule R296).
-/

open Sys2Proof.Claims

namespace Sys2Proof.Machine

section
variable {s t : State}

/-! ## The fault latch through the shared operations -/

theorem emit_err {y : Bytes} (h : emit y s = .ok t) : t.err = s.err := by
  rcases emit_cases y s with ⟨-, he⟩ | ⟨-, he⟩ <;> rw [he] at h <;> cases h
  rfl

theorem emitConsume_err {y : Bytes} (h : emitConsume y s = .ok t) : t.err = s.err := by
  rcases emitConsume_cases y s with ⟨-, he⟩ | ⟨-, he⟩ <;> rw [he] at h <;> cases h
  rfl

theorem doFrame_err {q : SeqNum} {dip rel : Bool} {kind : Kind} (h : doFrame q dip rel kind s = .ok t) :
    t.err = s.err := by
  rcases doFrame_cases q dip rel kind s with ⟨-, he⟩ | ⟨-, -, he⟩ | ⟨-, -, he⟩ <;> rw [he] at h <;> cases h
  rfl

theorem marshal_err {k : PacketType} (h : marshal k s = .ok t) : t.err = s.err := by
  rcases marshal_cases k s with ⟨-, -, he⟩ | ⟨-, -, he⟩ | ⟨-, -, he⟩ <;> rw [he] at h <;> cases h
  rfl

/-- A command whose body leaves the latch alone touches it only by raising. -/
theorem command_err_cases {body : Except Cause State} (h : command s body = .next t)
    (hbody : body = .ok t → t.err = s.err) : t.err = s.err ∨ ∃ f, s.err = 0 ∧ t = raise f s := by
  rcases command_cases h with ⟨-, rfl⟩ | ⟨-, hok⟩ | ⟨f, hclear, -, rfl⟩
  · exact .inl rfl
  · exact .inl (hbody hok)
  · exact .inr ⟨f, hclear, rfl⟩

theorem command_ok_err {u : State} (h : command s (.ok u) = .next t) (hu : u.err = s.err) : t.err = s.err := by
  rcases command_cases h with ⟨-, rfl⟩ | ⟨-, hok⟩ | ⟨_, -, herror, -⟩
  · rfl
  · cases hok; exact hu
  · cases herror

/-! ## The fault latch through the ports (R227 to R229) -/

/-- Everything `POP` can do. -/
theorem exec_pop_cases (h : exec .pop s = .next t) : (s.obuf = [] ∧ t = answer 0 s) ∨
    ∃ b rest, s.obuf = b :: rest ∧ t = answer (popWord b) { s with obuf := rest } := by
  cases hobuf : s.obuf with
  | nil => rw [exec_pop_empty hobuf] at h; cases h; exact .inl ⟨rfl, rfl⟩
  | cons b rest => rw [exec_pop_cons hobuf] at h; cases h; exact .inr ⟨b, rest, rfl, rfl⟩

theorem exec_pop_err (h : exec .pop s = .next t) : t.err = s.err := by
  rcases exec_pop_cases h with ⟨-, rfl⟩ | ⟨_, _, -, rfl⟩ <;> rfl

theorem exec_rd_err {r : Reg} (h : exec (.rd r) s = .next t) : t.err = s.err := by
  cases r with
  | dout => cases h
  | _ => cases h; rfl

theorem exec_decodeRead_err {r : Reg} (h : exec (decodeRead r) s = .next t) : t.err = s.err := by
  cases r with
  | dout => exact exec_pop_err h
  | _ => exact exec_rd_err h

/-- Everything `WR` can do when it gives a next state. -/
theorem exec_wr_cases {r : Reg} {v : Word} (h : exec (.wr r v) s = .next t) :
    r ≠ .cmd ∧ r ≠ .din ∧ t = writeReg r v s := by
  cases r with
  | cmd | din => cases h
  | _ => cases h; exact ⟨nofun, nofun, rfl⟩

theorem exec_wr {r : Reg} (s : State) (v : Word) (hcmd : r ≠ .cmd) (hdin : r ≠ .din) :
    exec (.wr r v) s = .next (writeReg r v s) := by
  refine if_pos ?_
  simp [Reg.wrOk, hcmd, hdin]

theorem exec_wr_err {r : Reg} {v : Word} (h : exec (.wr r v) s = .next t) : t.err = s.err := by
  obtain ⟨-, -, rfl⟩ := exec_wr_cases h
  exact writeReg_err r v s

/-! ## Raising (R290, R295) -/

/-- The state in which an instruction's fault is raised: `PARSE` has written its results by then (R177),
every other instruction has done nothing. -/
def beforeRaise (i : Instr) (s : State) : State :=
  if i = .parse then parseResults (parse csf s.ibuf) s else s

theorem beforeRaise_parse (s : State) : beforeRaise .parse s = parseResults (parse csf s.ibuf) s := if_pos rfl

theorem beforeRaise_of_ne {i : Instr} (s : State) (hi : i ≠ .parse) : beforeRaise i s = s := if_neg hi

theorem exec_parse_err_cases (h : exec .parse s = .next t) :
    t.err = s.err ∨ ∃ f, s.err = 0 ∧ t = raise f (beforeRaise .parse s) := by
  by_cases hclear : s.err = 0
  · cases hfault : (parse csf s.ibuf).fault with
    | none => rw [exec_parse_ok hclear rfl hfault] at h; cases h; exact .inl rfl
    | some f => rw [exec_parse_fault hclear rfl hfault] at h; cases h; exact .inr ⟨f, hclear, rfl⟩
  · have hsame : exec .parse s = .next s := exec_command_faulted rfl nofun hclear
    cases hsame.symm.trans h
    exact .inl rfl

/-- Everything an instruction can do to the fault latch: clear it, leave it, or raise. -/
theorem exec_err_cases {i : Instr} (h : exec i s = .next t) :
    ((i = .clrErr ∨ i = .reset) ∧ t.err = 0) ∨ t.err = s.err ∨
      ∃ f, s.err = 0 ∧ t = raise f (beforeRaise i s) := by
  cases i with
  | clrErr => cases h; exact .inl ⟨.inl rfl, rfl⟩
  | reset => cases h; exact .inl ⟨.inr rfl, rfl⟩
  | nop | flush | seqClr | crcInit | crcByte | crcBuf | crc16 | classify =>
    exact .inr (.inl (command_ok_err h rfl))
  | crcPut => exact .inr (command_err_cases h emit_err)
  | encode | wrap => exact .inr (command_err_cases h emitConsume_err)
  | decode =>
    refine .inr (command_err_cases h fun hok => ?_)
    split at hok
    · cases hok
    · exact emitConsume_err hok
  | unwrap =>
    refine .inr (command_err_cases h fun hok => ?_)
    split at hok
    · cases hok
    · split at hok
      · cases hok
      · exact emitConsume_err hok
  | frame => exact .inr (command_err_cases h doFrame_err)
  | frames rel dip kind =>
    refine .inr (command_err_cases h fun hok => ?_)
    cases hframe : doFrame (nextSeq csf s.seq) dip rel kind s with
    | error f => rw [hframe] at hok; cases hok
    | ok u =>
      have hkept := doFrame_err hframe
      rw [hframe] at hok
      cases hok
      exact hkept
  | parse => exact .inr (exec_parse_err_cases h)
  | mkplInit | mkplStart | mkplData | mkplStopData | mkplValidate | mkplActivate | mkplPing =>
    exact .inr (command_err_cases h marshal_err)
  | push =>
    refine .inr (command_err_cases h fun hok => ?_)
    split at hok <;> cases hok
    rfl
  | pop => exact .inr (.inl (exec_pop_err h))
  | rd => exact .inr (.inl (exec_rd_err h))
  | wr => exact .inr (.inl (exec_wr_err h))

/-- An illegal word raises at once, or is ignored. -/
theorem illegalCommand_cases (s : State) :
    (s.err ≠ 0 ∧ illegalCommand s = s) ∨ (s.err = 0 ∧ illegalCommand s = raise .illegalCommand s) := by
  by_cases hclear : s.err = 0
  · exact .inr ⟨hclear, gated_clear _ hclear⟩
  · exact .inl ⟨hclear, gated_faulted _ hclear⟩

/-- What an access did that left a new fault code: it raised a fault, in the state it was served in but
for the results of `PARSE`. -/
theorem serve_raised {a : Access} (h : serve a s = .next t) (hnew : t.err ≠ s.err) (hfault : t.err ≠ 0) :
    ∃ f, s.err = 0 ∧ (decode a = .ok .parse ∧ t = raise f (parseResults (parse csf s.ibuf) s) ∨
      decode a ≠ .ok .parse ∧ t = raise f s) := by
  rcases serve_cases h with ⟨i, hi, hexec⟩ | ⟨hi, rfl⟩
  · rcases exec_err_cases hexec with ⟨-, hzero⟩ | hkept | ⟨f, hclear, rfl⟩
    · exact absurd hzero hfault
    · exact absurd hkept hnew
    · by_cases hparse : i = .parse
      · subst hparse
        exact ⟨f, hclear, .inl ⟨hi, congrArg _ (beforeRaise_parse s)⟩⟩
      · refine ⟨f, hclear, .inr ⟨fun hd => hparse ?_, congrArg _ (beforeRaise_of_ne s hparse)⟩⟩
        exact Except.ok.inj (hi.symm.trans hd)
  · rcases illegalCommand_cases s with ⟨-, hsame⟩ | ⟨hclear, hraise⟩
    · exact absurd (congrArg State.err hsame) hnew
    · exact ⟨.illegalCommand, hclear, .inr ⟨by rw [hi]; nofun, hraise⟩⟩

/-- The accesses that are not refused: an aligned word in the window, or a reset (R62 to R64). -/
theorem access_of_serve_next {a : Access} (h : serve a s = .next t) :
    (∃ r v, a = wordWrite r v) ∨ (∃ r, a = wordRead r) ∨ a = .reset := by
  cases a with
  | regWrite off size v =>
    rcases locate_cases off size with ⟨-, he⟩ | ⟨-, -, -, he⟩ | ⟨r, rfl, rfl, -⟩
    · simp [serve, decode, he] at h
    · simp [serve, decode, he] at h
    · exact .inl ⟨r, v, rfl⟩
  | regRead off size =>
    rcases locate_cases off size with ⟨-, he⟩ | ⟨-, -, -, he⟩ | ⟨r, rfl, rfl, -⟩
    · simp [serve, decode, he] at h
    · simp [serve, decode, he] at h
    · exact .inr (.inl ⟨r, rfl⟩)
  | reset => exact .inr (.inr rfl)

/-- Reads, register writes and reset raise nothing, so an access that does writes `CMD` or `DIN`. -/
theorem cmd_or_din_of_raised {a : Access} (h : serve a s = .next t) (hnew : t.err ≠ s.err)
    (hfault : t.err ≠ 0) : ∃ v, a = .regWrite 0x00 4 v ∨ a = .regWrite 0x08 4 v := by
  rcases access_of_serve_next h with ⟨r, v, rfl⟩ | ⟨r, rfl⟩ | rfl
  · by_cases hcmd : r = .cmd
    · exact ⟨v, .inl (by rw [hcmd]; rfl)⟩
    by_cases hdin : r = .din
    · exact ⟨v, .inr (by rw [hdin]; rfl)⟩
    exact absurd (exec_wr_err ((serve_wr s v hcmd hdin).symm.trans h)) hnew
  · exact absurd (exec_decodeRead_err ((serve_ok s (decode_wordRead r)).symm.trans h)) hnew
  · cases h; exact absurd rfl hfault

end

/-- `ERR` is the low field of `STATUS` (R31). -/
theorem statusWord_extract_err (s : State) : (statusWord s).extractLsb' 0 4 = s.err :=
  BitVec.extractLsb'_append_eq_right

/-- Settles O52: what raises is found by what an access can do to the latch, instruction by instruction,
and the `STATUS` of the state it leaves carries the code. -/
theorem onlyCmdAndDinWritesRaise : Obligations.OnlyCmdAndDinWritesRaise := by
  intro a s t h hnew hfault
  obtain ⟨_, hclear, -⟩ := serve_raised h hnew hfault
  have hstatus : serve (.regRead 0x04 4) t = .next (answer (statusWord t) t) :=
    (serve_rd t (r := .status) nofun).trans (exec_rd t nofun)
  exact ⟨hclear, cmd_or_din_of_raised h hnew hfault, statusWord t, hstatus, statusWord_extract_err t⟩

/-- Settles O53: every raise is `raise` of one of the nine causes, in the state the access was served in
or, for `PARSE`, in that state with its results written. -/
theorem faultsHaveNoPartialEffect : Obligations.FaultsHaveNoPartialEffect := by
  intro a s t h hclear hfault
  have hnew : t.err ≠ s.err := fun hsame => hfault (hsame.trans hclear)
  obtain ⟨f, -, hraise⟩ := serve_raised h hnew hfault
  obtain ⟨hmin, hmax⟩ := code_range f
  rcases hraise with ⟨hparse, rfl⟩ | ⟨hother, rfl⟩
  · exact ⟨hmin, hmax, fun hne => absurd hparse hne, fun _ => rfl⟩
  · exact ⟨hmin, hmax, fun _ => rfl, fun hparse => absurd hparse hother⟩

/-! ## The ports in the faulted condition (R296) -/

/-- `POP` neither reads nor writes the latch. -/
theorem exec_pop_withErr {s t : State} (e : BitVec 4) (h : exec .pop s = .next t) :
    exec .pop { s with err := e } = .next { t with err := e } := by
  rcases exec_pop_cases h with ⟨hobuf, rfl⟩ | ⟨b, rest, hobuf, rfl⟩
  · exact exec_pop_empty hobuf
  · exact exec_pop_cons hobuf

/-- Only `STATUS` shows the latch (R31, R61). -/
theorem readReg_withErr {r : Reg} (s : State) (e : BitVec 4) (hr : r ≠ .status) :
    readReg r { s with err := e } = readReg r s := by
  cases r with
  | status => exact absurd rfl hr
  | _ => rfl

theorem writeReg_withErr (r : Reg) (v : Word) (s : State) (e : BitVec 4) :
    writeReg r v { s with err := e } = { writeReg r v s with err := e } := by
  cases r <;> rfl

/-- `WR` neither reads nor writes the latch. -/
theorem exec_wr_withErr {r : Reg} {v : Word} {s t : State} (e : BitVec 4) (h : exec (.wr r v) s = .next t) :
    exec (.wr r v) { s with err := e } = .next { t with err := e } := by
  obtain ⟨hcmd, hdin, rfl⟩ := exec_wr_cases h
  rw [exec_wr _ v hcmd hdin, writeReg_withErr]

/-- Settles O54: `CMD` and `DIN` writes meet the gate; the other ports do not look at the latch, `STATUS`
apart. -/
theorem faultedConditionIgnoresWork : Obligations.FaultedConditionIgnoresWork := by
  intro s hs
  refine ⟨fun w => serve_cmdWrite_faulted hs, fun v => (serve_push s v).trans (command_faulted _ hs),
    fun _ => exec_pop_withErr s.err, fun r hr => ⟨readReg r s, exec_rd s hr, fun hstatus => ?_⟩,
    fun _ _ _ => exec_wr_withErr s.err⟩
  rw [exec_rd _ hr, readReg_withErr s 0 hstatus]
  rfl

end Sys2Proof.Machine
end

section
/-!
The step, the decoder and the encoder: 20_memory.md rules R61 to R64 and R70 to R72, 30_encoding.md rules
R90 to R94. Encoding and decoding are inverse to each other, and a step serves the oldest access, which is
refused only where the spec gives it no meaning.
-/

open Sys2Proof.Claims

namespace Sys2Proof.Machine

/-! ## From a command to its word and back (R90, R91, R94) -/

/-- With `seq` 0 a word of `FRAME` ends in six zeros, as one of `FRAMES` does. -/
theorem framerWord_seq_zero (rel dip : Bool) (kind : Kind) (op : BitVec 20) :
    framerWord rel dip kind 0#3 op = op ++ kind ++ BitVec.ofBool rel ++ BitVec.ofBool dip ++ 0#6 := by
  apply BitVec.eq_of_toNat_eq
  simp only [framerWord, toNat_append_eq, BitVec.toNat_zero]
  omega

/-- The word of a command selects that command. -/
theorem decodeCommand_of_commandWord {i : Instr} {w : Word} (h : commandWord i = some w) :
    decodeCommand w = some i := by
  cases i with
  | push | pop | rd | wr | reset => cases h
  | flush fi fo => cases h; cases fi <;> cases fo <;> rfl
  | crcByte b => cases h; exact decodeCommand_crcByte b
  | frame rel dip kind seq => cases h; exact decodeCommand_frame rel dip kind seq
  | frames rel dip kind =>
    cases h
    exact framerWord_seq_zero rel dip kind 0x00310#20 ▸ decodeCommand_frames rel dip kind
  | _ => cases h; rfl

section
variable {w : Word}

theorem bit1_bitOf (w : Word) (k : Nat) : bit1 (bitOf w k) = w.extractLsb' k 1 := by
  ext j hj
  obtain rfl : j = 0 := by omega
  simp [bit1, bitOf]

/-- A field whose bits a row fixes is the row's. -/
theorem extract_of_selected {m p : Word} (h : w &&& m = p) (k n : Nat)
    (hm : m.extractLsb' k n = BitVec.allOnes n) : w.extractLsb' k n = p.extractLsb' k n := by
  rw [← h, BitVec.extractLsb'_and, hm, BitVec.and_allOnes]

theorem eq_of_fixedRow {p : Word} (h : w &&& 0xFFFFFFFF#32 = p) : some p = some w := by
  have hones : 0xFFFFFFFF#32 = BitVec.allOnes 32 := rfl
  rw [← h, hones, BitVec.and_allOnes]

theorem commandWord_flushRow (h : w &&& 0xFFFFFFFC#32 = 0x00020000#32) :
    commandWord (.flush (bitOf w 0) (bitOf w 1)) = some w := by
  have hfixed : w.extractLsb' 2 30 = 0x00#8 ++ 0x02#8 ++ 0#14 := extract_of_selected h 2 30 rfl
  have hhigh : w.extractLsb' 2 30 ++ w.extractLsb' 1 1 = w.extractLsb' 1 31 :=
    BitVec.extractLsb'_append_extractLsb'_eq_extractLsb' rfl
  have hall : w.extractLsb' 1 31 ++ w.extractLsb' 0 1 = w.extractLsb' 0 32 :=
    BitVec.extractLsb'_append_extractLsb'_eq_extractLsb' rfl
  rw [commandWord, bit1_bitOf, bit1_bitOf, ← hfixed, hhigh, hall, BitVec.extractLsb'_eq_self]

theorem commandWord_crcByteRow (h : w &&& 0xFFFFFF00#32 = 0x00110000#32) :
    commandWord (.crcByte (w.extractLsb' 0 8)) = some w := by
  have hfixed : w.extractLsb' 8 24 = 0x00#8 ++ 0x11#8 ++ 0#8 := extract_of_selected h 8 24 rfl
  have hall : w.extractLsb' 8 24 ++ w.extractLsb' 0 8 = w.extractLsb' 0 32 :=
    BitVec.extractLsb'_append_extractLsb'_eq_extractLsb' rfl
  rw [commandWord, ← hfixed, hall, BitVec.extractLsb'_eq_self]

/-- The fields that `FRAME` and `FRAMES` have in common, side by side. -/
theorem framerFields_eq_extract (w : Word) :
    w.extractLsb' 12 20 ++ w.extractLsb' 8 4 ++ bit1 (bitOf w 7) ++ bit1 (bitOf w 6) =
      w.extractLsb' 6 26 := by
  have hkind : w.extractLsb' 12 20 ++ w.extractLsb' 8 4 = w.extractLsb' 8 24 :=
    BitVec.extractLsb'_append_extractLsb'_eq_extractLsb' rfl
  have hrel : w.extractLsb' 8 24 ++ w.extractLsb' 7 1 = w.extractLsb' 7 25 :=
    BitVec.extractLsb'_append_extractLsb'_eq_extractLsb' rfl
  have hdip : w.extractLsb' 7 25 ++ w.extractLsb' 6 1 = w.extractLsb' 6 26 :=
    BitVec.extractLsb'_append_extractLsb'_eq_extractLsb' rfl
  rw [bit1_bitOf, bit1_bitOf, hkind, hrel, hdip]

theorem commandWord_frameRow (h : w &&& 0xFFFFF038#32 = 0x00300000#32) :
    commandWord (.frame (bitOf w 7) (bitOf w 6) (w.extractLsb' 8 4) (w.extractLsb' 0 3)) = some w := by
  have hfixed : w.extractLsb' 12 20 = 0x00#8 ++ 0x30#8 ++ 0#4 := extract_of_selected h 12 20 rfl
  have hreserved : w.extractLsb' 3 3 = 0#3 := extract_of_selected h 3 3 rfl
  have hhigh : w.extractLsb' 6 26 ++ w.extractLsb' 3 3 = w.extractLsb' 3 29 :=
    BitVec.extractLsb'_append_extractLsb'_eq_extractLsb' rfl
  have hall : w.extractLsb' 3 29 ++ w.extractLsb' 0 3 = w.extractLsb' 0 32 :=
    BitVec.extractLsb'_append_extractLsb'_eq_extractLsb' rfl
  rw [commandWord, ← hfixed, framerFields_eq_extract, ← hreserved, hhigh, hall, BitVec.extractLsb'_eq_self]

theorem commandWord_framesRow (h : w &&& 0xFFFFF03F#32 = 0x00310000#32) :
    commandWord (.frames (bitOf w 7) (bitOf w 6) (w.extractLsb' 8 4)) = some w := by
  have hfixed : w.extractLsb' 12 20 = 0x00#8 ++ 0x31#8 ++ 0#4 := extract_of_selected h 12 20 rfl
  have hreserved : w.extractLsb' 0 6 = 0#6 := extract_of_selected h 0 6 rfl
  have hall : w.extractLsb' 6 26 ++ w.extractLsb' 0 6 = w.extractLsb' 0 32 :=
    BitVec.extractLsb'_append_extractLsb'_eq_extractLsb' rfl
  rw [commandWord, ← hfixed, framerFields_eq_extract, ← hreserved, hall, BitVec.extractLsb'_eq_self]

/-- A word that a row selects is the word of what the row reads: twenty rows fix every bit, and the other
four read the bits they do not fix. -/
theorem commandWord_of_row (w : Word) :
    ∀ r ∈ commandRows, w &&& r.mask = r.pat → commandWord (r.read w) = some w := by
  simp only [commandRows, List.forall_mem_cons]
  exact ⟨eq_of_fixedRow, eq_of_fixedRow, commandWord_flushRow, eq_of_fixedRow,
    eq_of_fixedRow, commandWord_crcByteRow, eq_of_fixedRow, eq_of_fixedRow, eq_of_fixedRow,
    eq_of_fixedRow, eq_of_fixedRow, eq_of_fixedRow, eq_of_fixedRow,
    commandWord_frameRow, commandWord_framesRow, eq_of_fixedRow,
    eq_of_fixedRow, eq_of_fixedRow, eq_of_fixedRow, eq_of_fixedRow, eq_of_fixedRow, eq_of_fixedRow,
    eq_of_fixedRow, eq_of_fixedRow, fun _ h => absurd h List.not_mem_nil⟩

end

/-- Settles O5: the row that selects the word fixes or reads each of its bits. -/
theorem commandWordOfDecodedWordIsTheWord : Obligations.CommandWordOfDecodedWordIsTheWord := by
  intro w i h
  obtain ⟨r, hr, hsel, rfl⟩ := decodeCommand_row h
  exact commandWord_of_row w r hr hsel

/-! ## From an instruction to its access and back (R62) -/

theorem decode_encode_command {i : Instr} {w : Word} (h : commandWord i = some w) :
    decode (encode i) = .ok i := by
  have hencode : encode i = cmdWrite w := by
    cases i with
    | push | pop | rd | wr | reset => cases h
    | _ => cases h; rfl
  rw [hencode]
  exact decode_cmdWrite_of_some (decodeCommand_of_commandWord h)

theorem decode_encode_push (b : Byte) : decode (encode (.push b)) = .ok (.push b) := by
  have hbyte : (b.setWidth 32).extractLsb' 0 8 = b := by
    rw [← BitVec.setWidth_eq_extractLsb' (by decide), BitVec.setWidth_setWidth_of_le b (by decide),
      BitVec.setWidth_eq]
  rw [encode, decode_wordWrite, decodeWrite, hbyte]

theorem decode_encode_rd {r : Reg} (h : (Instr.rd r).wellFormed = true) :
    decode (encode (.rd r)) = .ok (.rd r) := by
  have hdout : r ≠ .dout := by simpa [Instr.wellFormed, Reg.rdOk] using h
  rw [encode, decode_wordRead, decodeRead_of_ne hdout]

theorem decode_encode_wr {r : Reg} (v : Word) (h : (Instr.wr r v).wellFormed = true) :
    decode (encode (.wr r v)) = .ok (.wr r v) := by
  obtain ⟨hcmd, hdin⟩ : r ≠ .cmd ∧ r ≠ .din := by simpa [Instr.wellFormed, Reg.wrOk] using h
  rw [encode, decode_wordWrite, decodeWrite_of_ne v hcmd hdin]

/-- Settles O4: a command goes by its word, a port access by its register, reset by itself. -/
theorem decodeOfEncodeIsTheInstruction : Obligations.DecodeOfEncodeIsTheInstruction := by
  intro i hi
  cases i with
  | push b => exact decode_encode_push b
  | pop => exact decode_wordRead .dout
  | rd r => exact decode_encode_rd hi
  | wr r v => exact decode_encode_wr v hi
  | reset => rfl
  | _ => exact decode_encode_command rfl

/-- Settles O6: each word has its fields at the places of R90 and R91. -/
theorem writtenWordsDecode : Obligations.WrittenWordsDecode :=
  ⟨decode_cmdWrite_of_some (decodeCommand_frame true true 14 1),
    decode_cmdWrite_of_some (decodeCommand_frames true true 14),
    decode_cmdWrite_of_some (decodeCommand_crcByte 0x31), decode_flush true true, decode_flush true false,
    decode_cmdWrite_of_some rfl, decode_wordWrite .din 0x1C0, decode_wordRead .dout⟩

/-! ## Which instructions and accesses complete (R63, R64, R345; log entries 6 and 8) -/

/-- Settles O8: only `RD` and `WR` look at how the term is formed, and nothing else is refused. -/
theorem wellFormedInstructionsAlwaysComplete : Obligations.WellFormedInstructionsAlwaysComplete := by
  intro i s hi
  cases i with
  | pop =>
    cases hobuf : s.obuf with
    | nil => exact ⟨_, exec_pop_empty hobuf⟩
    | cons b t => exact ⟨_, exec_pop_cons hobuf⟩
  | rd r => exact ⟨_, if_pos hi⟩
  | wr r v => exact ⟨_, if_pos hi⟩
  | _ => exact ⟨_, rfl⟩

/-- Settles O7: a term that is not well formed is an `RD` or a `WR`, and their own tests refuse it. -/
theorem illFormedTermsAreRefused : Obligations.IllFormedTermsAreRefused := by
  intro i s hi
  cases i with
  | rd r => exact if_neg (Bool.eq_false_iff.mp hi)
  | wr r v => exact if_neg (Bool.eq_false_iff.mp hi)
  | _ => cases hi

/-- A command is well formed by its type. -/
theorem wellFormed_of_commandWord {i : Instr} {w : Word} (h : commandWord i = some w) :
    i.wellFormed = true := by
  cases i with
  | push | pop | rd | wr | reset => cases h
  | _ => rfl

theorem wellFormed_decodeRead (r : Reg) : (decodeRead r).wellFormed = true := by
  cases r <;> rfl

/-- Everything a located write can be: a well-formed instruction, or an illegal word. -/
theorem decodeWrite_cases (r : Reg) (v : Word) :
    (∃ i, decodeWrite r v = .ok i ∧ i.wellFormed = true) ∨ decodeWrite r v = .error .illegalCommand := by
  cases r with
  | cmd =>
    cases hi : decodeCommand v with
    | none => exact .inr (by simp [decodeWrite, hi])
    | some i =>
      have hword := commandWordOfDecodedWordIsTheWord v i hi
      exact .inl ⟨i, by simp [decodeWrite, hi], wellFormed_of_commandWord hword⟩
  | _ => exact .inl ⟨_, rfl, rfl⟩

theorem serve_encode {i : Instr} (s : State) (hi : i.wellFormed = true) : serve (encode i) s = exec i s :=
  serve_ok s (decodeOfEncodeIsTheInstruction i hi)

theorem serve_wordWrite_completes (r : Reg) (v : Word) (s : State) : ∃ t, serve (wordWrite r v) s = .next t := by
  rcases decodeWrite_cases r v with ⟨i, hi, hwf⟩ | hillegal
  · rw [serve_ok s ((decode_wordWrite r v).trans hi)]
    exact wellFormedInstructionsAlwaysComplete i s hwf
  · exact ⟨_, serve_illegal s ((decode_wordWrite r v).trans hillegal)⟩

theorem serve_wordRead_completes (r : Reg) (s : State) : ∃ t, serve (wordRead r) s = .next t := by
  rw [serve_ok s (decode_wordRead r)]
  exact wellFormedInstructionsAlwaysComplete _ s (wellFormed_decodeRead r)

section
variable {off size : Nat} {e : DecodeError}

theorem decode_regWrite_of_locate (v : Word) (h : locate off size = .error e) :
    decode (.regWrite off size v) = .error e := by
  simp only [decode, h]

theorem decode_regRead_of_locate (h : locate off size = .error e) : decode (.regRead off size) = .error e := by
  simp only [decode, h]

theorem serve_notAligned {a : Access} (s : State) (h : decode a = .error .notAlignedWord) :
    serve a s = .refused .notAlignedWord := by
  simp only [serve, h]

theorem serve_outside {a : Access} (s : State) (h : decode a = .error .outsideWindow) :
    serve a s = .refused .outsideWindow := by
  simp only [serve, h]

theorem locate_notAligned (h : size ≠ 4 ∨ off % 4 ≠ 0) : locate off size = .error .notAlignedWord := if_pos h

theorem locate_outside (halign : off % 4 = 0) (hout : 0x40 ≤ off) : locate off 4 = .error .outsideWindow := by
  simp [locate, halign, regAt_outside hout]

end

/-- Settles O2: an access is located before anything else, and every located one is answered. -/
theorem otherAccessesAreRefused : Obligations.OtherAccessesAreRefused := by
  intro off size v s
  refine ⟨fun h => ?_, fun hsize halign hout => ?_, fun hsize halign hin => ?_⟩
  · have hloc := locate_notAligned h
    exact ⟨serve_notAligned s (decode_regWrite_of_locate v hloc),
      serve_notAligned s (decode_regRead_of_locate hloc)⟩
  · subst hsize
    have hloc := locate_outside halign hout
    exact ⟨serve_outside s (decode_regWrite_of_locate v hloc),
      serve_outside s (decode_regRead_of_locate hloc)⟩
  · obtain ⟨r, hr⟩ := regAt_inside hin halign
    obtain rfl := offset_of_regAt hr
    subst hsize
    exact ⟨serve_wordWrite_completes r v s, serve_wordRead_completes r s⟩

/-! ## The step (R70, R72; log entries 1 and 2) -/

theorem step_pending {s : State} {a : Access} {rest : List Access} (h : s.pending = a :: rest) :
    step s = serve a { s with pending := rest } := by
  simp only [step, stepAccess, fetch, h]

theorem step_idle {s : State} (h : s.pending = []) : step s = .next s := by
  simp only [step, stepAccess, fetch, h]

/-- Settles O1: the step takes the oldest access from the queue and serves it. -/
theorem stepRunsTheDecodedInstruction : Obligations.StepRunsTheDecodedInstruction :=
  ⟨fun _ _ _ => step_pending, fun _ _ _ _ hp hi => (step_pending hp).trans (serve_ok _ hi),
    fun _ => step_idle⟩

/-- Settles O58: an idle step changes nothing, and every access the step can serve keeps the invariants. -/
theorem everyStepKeepsInvariants : Obligations.EveryStepKeepsInvariants := fun _ _ => inv_step

/-- Settles O59: the invariants hold of the reset values and do not speak of what is pending. -/
theorem resetMeetsInvariants : Obligations.ResetMeetsInvariants := inv_afterReset

end Sys2Proof.Machine
end

section
/-!
What each operation may write (10_state.md sections 2, 5 and 6, rule R230), that the host's side does not
reach the engine (rule R20, log entries 1 and 9), and what follows for a queue of accesses (rule R70) and for
the fault latch (rules R25, R297).
-/

open Sys2Proof.Claims

namespace Sys2Proof.Machine

/-! ## What an operation may write (R21 to R23, R27 to R30, R230) -/

/-- From `s` to `t` nothing changes but `IBUF`, `ERR` and what the spec's lists let `i` write; the host's
side gets at most one word. -/
structure WritesOnlyListed (i : Instr) (s t : State) : Prop where
  crc : t.crc = s.crc ∨ writesCrc i = true
  seq : t.seq = s.seq ∨ writesSeq i = true
  obuf : t.obuf = s.obuf ∨ writesObuf i = true
  parsed : t.hdr = s.hdr ∧ t.dlen = s.dlen ∨ i = .parse ∨ i = .reset
  classified : t.ptype = s.ptype ∨ i = .classify ∨ i = .reset
  operands : (t.mode, t.sdsize, t.blsize, t.appsize) = (s.mode, s.sdsize, s.blsize, s.appsize) ∨
    writesOperands i = true
  pending : t.pending = s.pending
  returned : t.returned = s.returned ∨ returnsWord i = true ∧ ∃ w, t.returned = s.returned ++ [w]

section
variable {i : Instr} {s t : State}

namespace WritesOnlyListed

theorem same (i : Instr) (s : State) : WritesOnlyListed i s s :=
  ⟨.inl rfl, .inl rfl, .inl rfl, .inl ⟨rfl, rfl⟩, .inl rfl, .inl rfl, rfl, .inl rfl⟩

/-- Fault entry writes `ERR` and `IBUF` only. -/
theorem raise (f : Cause) (h : WritesOnlyListed i s t) : WritesOnlyListed i s (raise f t) := { h with }

theorem withIbuf (x : Bytes) (h : WritesOnlyListed i s t) : WritesOnlyListed i s { t with ibuf := x } := { h with }

theorem consume (h : WritesOnlyListed i s t) : WritesOnlyListed i s (consume t) := h.withIbuf []

theorem withObuf (x : Bytes) (h : WritesOnlyListed i s t) (hi : writesObuf i = true) :
    WritesOnlyListed i s { t with obuf := x } := { h with obuf := .inr hi }

theorem withCrc (x : Crc) (h : WritesOnlyListed i s t) (hi : writesCrc i = true) :
    WritesOnlyListed i s { t with crc := x } := { h with crc := .inr hi }

theorem withSeq (x : SeqNum) (h : WritesOnlyListed i s t) (hi : writesSeq i = true) :
    WritesOnlyListed i s { t with seq := x } := { h with seq := .inr hi }

theorem answered (w : Word) (x : Bytes) (hi : returnsWord i = true) (hx : x = s.obuf ∨ writesObuf i = true) :
    WritesOnlyListed i s (answer w { s with obuf := x }) :=
  { same i s with
    obuf := hx
    returned := .inr ⟨hi, w, rfl⟩ }

theorem of_emit {y : Bytes} (hi : writesObuf i = true) (h : emit y s = .ok t) : WritesOnlyListed i s t := by
  rcases emit_cases y s with ⟨-, he⟩ | ⟨-, he⟩ <;> rw [he] at h <;> cases h
  exact (same i s).withObuf _ hi

theorem of_emitConsume {y : Bytes} (hi : writesObuf i = true) (h : emitConsume y s = .ok t) :
    WritesOnlyListed i s t := by
  rcases emitConsume_cases y s with ⟨-, he⟩ | ⟨-, he⟩ <;> rw [he] at h <;> cases h
  exact ((same i s).withObuf _ hi).consume

theorem of_doFrame {q : SeqNum} {dip rel : Bool} {kind : Kind} (hobuf : writesObuf i = true)
    (hcrc : writesCrc i = true) (h : doFrame q dip rel kind s = .ok t) : WritesOnlyListed i s t := by
  rcases doFrame_cases q dip rel kind s with ⟨-, he⟩ | ⟨-, -, he⟩ | ⟨-, -, he⟩ <;> rw [he] at h <;> cases h
  exact ((same i s).withObuf _ hobuf).consume.withCrc _ hcrc

theorem of_marshal {k : PacketType} (h : marshal k s = .ok t) : WritesOnlyListed i s t := by
  rcases marshal_cases k s with ⟨-, -, he⟩ | ⟨-, -, he⟩ | ⟨-, -, he⟩ <;> rw [he] at h <;> cases h
  exact (same i s).withIbuf _

/-- A command writes no more than its body does: ignored it writes nothing, and its fault entry is listed. -/
theorem of_command {body : Except Cause State} (h : command s body = .next t)
    (hbody : body = .ok t → WritesOnlyListed i s t) : WritesOnlyListed i s t := by
  rcases command_cases h with ⟨-, rfl⟩ | ⟨-, hok⟩ | ⟨f, -, -, rfl⟩
  · exact same i t
  · exact hbody hok
  · exact (same i s).raise f

theorem of_command_ok {u : State} (h : command s (.ok u) = .next t) (hu : WritesOnlyListed i s u) :
    WritesOnlyListed i s t :=
  of_command h fun hok => Except.ok.inj hok ▸ hu

theorem of_parse (h : exec .parse s = .next t) : WritesOnlyListed .parse s t := by
  have hresults (v : ParseResult) : WritesOnlyListed .parse s (parseResults v s) :=
    { same .parse s with parsed := .inr (.inl rfl) }
  cases h
  unfold gated
  split
  · split
    · exact (hresults _).raise _
    · exact (hresults _).consume
  · exact same .parse s

theorem of_wr {r : Reg} {v : Word} (h : exec (.wr r v) s = .next t) : WritesOnlyListed (.wr r v) s t := by
  obtain ⟨-, -, rfl⟩ := exec_wr_cases h
  cases r with
  | crc => exact (same _ s).withCrc _ rfl
  | mode | sdsize | blsize | appsize => exact { same _ s with operands := .inr rfl }
  | _ => exact same _ s

end WritesOnlyListed

open WritesOnlyListed in
/-- Every instruction writes only what the spec lists for it. -/
theorem exec_writesOnlyListed (h : exec i s = .next t) : WritesOnlyListed i s t := by
  cases i with
  | nop => exact of_command_ok h (same _ s)
  | clrErr => cases h; exact { same _ s with }
  | flush fi fo =>
    have hout : WritesOnlyListed (.flush fi fo) s { s with obuf := if fo then [] else s.obuf } := by
      cases fo with
      | false => exact same _ s
      | true => exact (same _ s).withObuf _ rfl
    exact of_command_ok h (hout.withIbuf _)
  | seqClr => exact of_command_ok h ((same _ s).withSeq _ rfl)
  | crcInit | crcByte => exact of_command_ok h ((same _ s).withCrc _ rfl)
  | crcBuf | crc16 => exact of_command_ok h ((same _ s).withCrc _ rfl).consume
  | crcPut => exact of_command h (of_emit rfl)
  | encode | wrap => exact of_command h (of_emitConsume rfl)
  | decode =>
    refine of_command h fun hok => ?_
    split at hok
    · cases hok
    · exact of_emitConsume rfl hok
  | unwrap =>
    refine of_command h fun hok => ?_
    split at hok
    · cases hok
    · split at hok
      · cases hok
      · exact of_emitConsume rfl hok
  | frame => exact of_command h (of_doFrame rfl rfl)
  | frames rel dip kind =>
    refine of_command h fun hok => ?_
    cases hframe : doFrame (nextSeq csf s.seq) dip rel kind s with
    | error f => rw [hframe] at hok; cases hok
    | ok u =>
      rw [hframe] at hok
      cases hok
      exact (of_doFrame rfl rfl hframe).withSeq _ rfl
  | parse => exact of_parse h
  | mkplInit | mkplStart | mkplData | mkplStopData | mkplValidate | mkplActivate | mkplPing =>
    exact of_command h of_marshal
  | classify => exact of_command_ok h { same _ s with classified := .inr (.inl rfl) }
  | push =>
    refine of_command h fun hok => ?_
    split at hok <;> cases hok
    exact (same _ s).withIbuf _
  | pop =>
    rcases exec_pop_cases h with ⟨-, rfl⟩ | ⟨_, rest, -, rfl⟩
    · exact answered _ s.obuf rfl (.inl rfl)
    · exact answered _ rest rfl (.inr rfl)
  | rd r =>
    cases r with
    | dout => cases h
    | _ => cases h; exact answered _ s.obuf rfl (.inl rfl)
  | wr => exact of_wr h
  | reset =>
    cases h
    exact ⟨.inr rfl, .inr rfl, .inr rfl, .inr (.inr rfl), .inr (.inr rfl), .inr rfl, rfl, .inl rfl⟩

/-- An illegal word writes nothing but `ERR` and `IBUF`. -/
theorem illegalCommand_writesOnlyListed (i : Instr) (s : State) : WritesOnlyListed i s (illegalCommand s) := by
  rcases illegalCommand_cases s with ⟨-, he⟩ | ⟨-, he⟩ <;> rw [he]
  · exact .same i s
  · exact (WritesOnlyListed.same i s).raise _

/-- An access that gives a next state writes what the instruction it decodes to may write; an illegal word
writes no more than `NOP`, which may write nothing listed. -/
theorem serve_writesOnlyListed {a : Access} (h : serve a s = .next t) :
    (∃ i, decode a = .ok i ∧ WritesOnlyListed i s t) ∨ WritesOnlyListed .nop s t := by
  rcases serve_cases h with ⟨i, hi, hexec⟩ | ⟨-, rfl⟩
  · exact .inl ⟨i, hi, exec_writesOnlyListed hexec⟩
  · exact .inr (illegalCommand_writesOnlyListed .nop s)

end

/-- Settles O56: what an instruction may write is said of each of them by `exec_writesOnlyListed`. -/
theorem onlyListedOperationsWriteState : Obligations.OnlyListedOperationsWriteState := by
  intro a s t h
  rcases serve_writesOnlyListed h with ⟨i, hi, hw⟩ | hw
  · refine ⟨fun hne => ⟨i, hi, hw.crc.resolve_left hne⟩, fun hne => ⟨i, hi, hw.seq.resolve_left hne⟩,
      fun hne => ⟨i, hi, hw.obuf.resolve_left hne⟩, fun hne => ?_, fun hne => ?_,
      fun hne => ⟨i, hi, hw.operands.resolve_left hne⟩⟩
    · have hlisted := hw.parsed.resolve_left fun ⟨hhdr, hdlen⟩ => hne.elim (· hhdr) (· hdlen)
      exact hlisted.imp (fun he : i = .parse => he ▸ hi) (fun he : i = .reset => he ▸ hi)
    · have hlisted := hw.classified.resolve_left hne
      exact hlisted.imp (fun he : i = .classify => he ▸ hi) (fun he : i = .reset => he ▸ hi)
  · obtain ⟨hhdr, hdlen⟩ := hw.parsed.resolve_right (by simp)
    exact ⟨absurd (hw.crc.resolve_right nofun), absurd (hw.seq.resolve_right nofun),
      absurd (hw.obuf.resolve_right nofun), fun hne => (hne.elim (· hhdr) (· hdlen)).elim,
      absurd (hw.classified.resolve_right (by simp)), absurd (hw.operands.resolve_right nofun)⟩

/-- Settles O55: an instruction clears the latch, leaves it, or raises, and it raises only where the latch is
clear; the one instruction beside `RESET` that clears it does no more. -/
theorem onlyClearOrResetLeavesFault : Obligations.OnlyClearOrResetLeavesFault := by
  intro a s t hfault h
  rcases serve_cases h with ⟨i, hi, hexec⟩ | ⟨-, rfl⟩
  · rcases exec_err_cases hexec with ⟨rfl | rfl, -⟩ | hkept | ⟨_, hclear, -⟩
    · cases hexec; exact .inl ⟨hi, rfl⟩
    · exact .inr (.inl hi)
    · exact .inr (.inr hkept)
    · exact absurd hclear hfault
  · rcases illegalCommand_cases s with ⟨-, hsame⟩ | ⟨hclear, -⟩
    · exact .inr (.inr (congrArg State.err hsame))
    · exact absurd hclear hfault

/-! ## The host's side (R20; log entries 1 and 9) -/

/-- The state with other accesses pending and other words returned. -/
def withHostSide (q : List Access) (ws : List Word) (s : State) : State :=
  { s with pending := q, returned := ws }

/-- A command's body that neither reads nor writes the host's side. -/
def HostBlind (body : State → Except Cause State) : Prop :=
  ∀ q ws s, body (withHostSide q ws s) = (body s).map (withHostSide q ws)

section
variable {q : List Access} {ws : List Word} {s t : State}

@[simp] theorem withHostSide_ibuf : (withHostSide q ws s).ibuf = s.ibuf := rfl

namespace HostBlind

variable {body rest : State → Except Cause State}

/-- Where the body is blind, so is the command. -/
theorem command (hbody : HostBlind body) (h : command s (body s) = .next t) :
    command (withHostSide q ws s) (body (withHostSide q ws s)) = .next (withHostSide q ws t) := by
  rw [hbody q ws s]
  rcases command_cases h with ⟨hs, rfl⟩ | ⟨hs, hok⟩ | ⟨f, hs, herror, rfl⟩
  · exact command_faulted _ hs
  · rw [hok]; exact command_clear_ok hs
  · rw [herror]; exact command_clear_error hs

theorem error (f : Cause) : HostBlind fun _ => .error f := fun _ _ _ => rfl

theorem ok {g : State → State} (hg : ∀ q ws s, g (withHostSide q ws s) = withHostSide q ws (g s)) :
    HostBlind fun s => .ok (g s) := fun q ws s => congrArg Except.ok (hg q ws s)

theorem ite {p : State → Prop} [DecidablePred p] (hp : ∀ q ws s, p (withHostSide q ws s) ↔ p s)
    (hbody : HostBlind body) (hrest : HostBlind rest) : HostBlind fun s => if p s then body s else rest s := by
  intro q ws s
  by_cases h : p s
  · simpa [h, hp] using hbody q ws s
  · simpa [h, hp] using hrest q ws s

theorem option {α : Type} {x : State → Option α} {f : Cause} {body : α → State → Except Cause State}
    (hx : ∀ q ws s, x (withHostSide q ws s) = x s) (hbody : ∀ a, HostBlind (body a)) :
    HostBlind fun s => (x s).elim (.error f) (fun a => body a s) := by
  intro q ws s
  simp only [hx]
  cases x s with
  | none => rfl
  | some a => exact hbody a q ws s

theorem map {g : State → State → State}
    (hg : ∀ q ws s t, g (withHostSide q ws s) (withHostSide q ws t) = withHostSide q ws (g s t))
    (hbody : HostBlind body) : HostBlind fun s => (body s).map (g s) := by
  intro q ws s
  simp only [hbody q ws s]
  cases body s with
  | error f => rfl
  | ok t => exact congrArg Except.ok (hg q ws s t)

section
variable {y : State → Bytes}

theorem of_emit (hy : ∀ q ws s, y (withHostSide q ws s) = y s) : HostBlind fun s => emit (y s) s :=
  ite (fun q ws s => by rw [hy q ws s]; rfl) (error .outputOverflow)
    (ok fun q ws s => by rw [hy q ws s]; rfl)

theorem of_emitConsume (hy : ∀ q ws s, y (withHostSide q ws s) = y s) : HostBlind fun s => emitConsume (y s) s :=
  map (g := fun _ => consume) (fun _ _ _ _ => rfl) (of_emit hy)

end

theorem of_doFrame {n : State → SeqNum} (hn : ∀ q ws s, n (withHostSide q ws s) = n s) (dip rel : Bool)
    (kind : Kind) : HostBlind fun s => doFrame (n s) dip rel kind s := by
  have hframe (q : List Access) (ws : List Word) (s : State) :
      frame csf (n (withHostSide q ws s)) dip rel kind (withHostSide q ws s).ibuf =
        frame csf (n s) dip rel kind s.ibuf := by rw [hn q ws s, withHostSide_ibuf]
  exact ite (fun _ _ _ => Iff.rfl) (error .lengthOverflow)
    (map (g := fun s t => { t with crc := (frame csf (n s) dip rel kind s.ibuf).2 })
      (fun q ws s t => by rw [hframe q ws s]; simp only [withHostSide])
      (of_emitConsume fun q ws s => congrArg Prod.fst (hframe q ws s)))

/-- The payload is made of `IBUF` and the operand registers. -/
theorem of_marshal (k : PacketType) : HostBlind (marshal k) := by
  have hpayload (q : List Access) (ws : List Word) (s : State) :
      payloadOf csf k (withHostSide q ws s).ibuf (withHostSide q ws s) = payloadOf csf k s.ibuf s := by
    cases k <;> rfl
  exact ite (fun _ _ _ => Iff.rfl) (error .badOperand)
    (ite (fun q ws s => by rw [hpayload q ws s]) (error .inputOverflow)
      (ok (g := fun s => { s with ibuf := payloadOf csf k s.ibuf s })
        fun q ws s => by rw [hpayload q ws s]; rfl))

end HostBlind

theorem writeReg_withHostSide (r : Reg) (v : Word) (s : State) :
    writeReg r v (withHostSide q ws s) = withHostSide q ws (writeReg r v s) := by
  cases r <;> rfl

theorem readReg_withHostSide (r : Reg) (s : State) : readReg r (withHostSide q ws s) = readReg r s := by
  cases r <;> rfl

theorem exec_parse_withHostSide (h : exec .parse s = .next t) :
    exec .parse (withHostSide q ws s) = .next (withHostSide q ws t) := by
  by_cases hclear : s.err = 0
  · cases hfault : (parse csf s.ibuf).fault with
    | none =>
      rw [exec_parse_ok hclear rfl hfault] at h
      cases h
      exact exec_parse_ok (s := withHostSide q ws s) hclear rfl hfault
    | some f =>
      rw [exec_parse_fault hclear rfl hfault] at h
      cases h
      exact exec_parse_fault (s := withHostSide q ws s) hclear rfl hfault
  · have hsame : exec .parse s = .next s := exec_command_faulted rfl nofun hclear
    cases hsame.symm.trans h
    exact exec_command_faulted rfl nofun hclear

theorem exec_decode_eq (s : State) : exec .decode s =
    command s ((unstuff csf s.ibuf).elim (.error .badStuffing) fun x => emitConsume x s) := by
  change execDecode s = _
  cases hx : unstuff csf s.ibuf <;> simp only [execDecode, hx, Option.elim]

theorem exec_unwrap_eq (s : State) : exec .unwrap s =
    command s ((span csf s.ibuf).elim (.error .noFrame) fun p =>
      (unstuff csf p).elim (.error .badStuffing) fun x => emitConsume x s) := by
  change execUnwrap s = _
  cases hp : span csf s.ibuf with
  | none => simp only [execUnwrap, hp, Option.elim]
  | some p => cases hx : unstuff csf p <;> simp only [execUnwrap, hp, hx, Option.elim]

open HostBlind in
/-- An instruction that returns no word does not see the host's side. -/
theorem exec_withHostSide {i : Instr} (hi : returnsWord i = false) (h : exec i s = .next t) :
    exec i (withHostSide q ws s) = .next (withHostSide q ws t) := by
  cases i with
  | pop | rd => cases hi
  | clrErr | reset => cases h; rfl
  | nop => exact (ok (g := fun s => s) fun _ _ _ => rfl).command h
  | flush fi fo =>
    exact (ok (g := fun s => { s with
      ibuf := if fi then [] else s.ibuf, obuf := if fo then [] else s.obuf }) fun _ _ _ => rfl).command h
  | seqClr => exact (ok (g := fun s => { s with seq := 0 }) fun _ _ _ => rfl).command h
  | crcInit => exact (ok (g := fun s => { s with crc := csf.crcInit }) fun _ _ _ => rfl).command h
  | crcByte b =>
    exact (ok (g := fun s => { s with crc := csf.crcStep s.crc b }) fun _ _ _ => rfl).command h
  | crcBuf =>
    exact (ok (g := fun s => consume { s with crc := crcFold csf s.crc s.ibuf }) fun _ _ _ => rfl).command h
  | crc16 =>
    exact (ok (g := fun s => consume { s with crc := crc16 csf s.ibuf }) fun _ _ _ => rfl).command h
  | crcPut => exact (of_emit (y := fun s => le16 s.crc) fun _ _ _ => rfl).command h
  | encode => exact (of_emitConsume (y := fun s => stuff csf s.ibuf) fun _ _ _ => rfl).command h
  | wrap => exact (of_emitConsume (y := fun s => wrap csf s.ibuf) fun _ _ _ => rfl).command h
  | decode =>
    rw [exec_decode_eq] at h ⊢
    exact (option (f := .badStuffing) (x := fun s => unstuff csf s.ibuf) (body := emitConsume) (fun _ _ _ => rfl)
      fun x => of_emitConsume (y := fun _ => x) fun _ _ _ => rfl).command h
  | unwrap =>
    rw [exec_unwrap_eq] at h ⊢
    exact (option (f := .noFrame) (x := fun s => span csf s.ibuf) (fun _ _ _ => rfl) fun p =>
      option (f := .badStuffing) (x := fun _ => unstuff csf p) (body := emitConsume) (fun _ _ _ => rfl)
        fun x => of_emitConsume (y := fun _ => x) fun _ _ _ => rfl).command h
  | frame rel dip kind seq => exact (of_doFrame (n := fun _ => seq) (fun _ _ _ => rfl) dip rel kind).command h
  | frames rel dip kind =>
    exact (map (g := fun s t => { t with seq := nextSeq csf s.seq }) (fun _ _ _ _ => rfl)
      (of_doFrame (n := fun s => nextSeq csf s.seq) (fun _ _ _ => rfl) dip rel kind)).command h
  | parse => exact exec_parse_withHostSide h
  | mkplInit | mkplStart | mkplData | mkplStopData | mkplValidate | mkplActivate | mkplPing =>
    exact (of_marshal _).command h
  | classify => exact (ok (g := fun s => { s with ptype := inferType csf s.ibuf }) fun _ _ _ => rfl).command h
  | push b =>
    exact (ite (p := fun s => s.ibuf.length = csf.ibufCap) (fun _ _ _ => Iff.rfl) (error .inputOverflow)
      (ok (g := fun s => { s with ibuf := s.ibuf ++ [b] }) fun _ _ _ => rfl)).command h
  | wr r v =>
    obtain ⟨hcmd, hdin, rfl⟩ := exec_wr_cases h
    rw [exec_wr _ v hcmd hdin, writeReg_withHostSide]

/-- An answer goes behind the words returned before, whatever they are. -/
theorem answer_withHostSide (v : Word) (s : State) : answer v (withHostSide q ws s) =
    withHostSide q (ws ++ (answer v s).returned.drop s.returned.length) (answer v s) := by
  rw [answer_returned, List.drop_left]
  rfl

/-- `POP` and `RD` return the word they return in any state with the same engine. -/
theorem exec_answer_withHostSide {i : Instr} (hi : returnsWord i = true) (h : exec i s = .next t) :
    exec i (withHostSide q ws s) =
      .next (withHostSide q (ws ++ t.returned.drop s.returned.length) t) := by
  cases i with
  | pop =>
    rcases exec_pop_cases h with ⟨hobuf, rfl⟩ | ⟨b, rest, hobuf, rfl⟩
    · rw [← answer_withHostSide]
      exact exec_pop_empty hobuf
    · exact (exec_pop_cons (s := withHostSide q ws s) hobuf).trans
        (congrArg Host.Outcome.next (answer_withHostSide (popWord b) { s with obuf := rest }))
  | rd r =>
    by_cases hr : r = .dout
    · subst hr; cases h
    · rw [exec_rd s hr] at h
      cases h
      rw [exec_rd _ hr, readReg_withHostSide, answer_withHostSide]
  | _ => cases hi

theorem illegalCommand_withHostSide (s : State) :
    illegalCommand (withHostSide q ws s) = withHostSide q ws (illegalCommand s) :=
  (apply_ite (withHostSide q ws) (s.err = 0) (raise .illegalCommand s) s).symm

theorem serve_withHostSide {a : Access} (h : serve a s = .next t) :
    serve a (withHostSide q ws s) =
      .next (withHostSide q (ws ++ t.returned.drop s.returned.length) t) := by
  have hnone (hsame : t.returned = s.returned) : ws ++ t.returned.drop s.returned.length = ws := by
    rw [hsame, List.drop_length, List.append_nil]
  rcases serve_cases h with ⟨i, hi, hexec⟩ | ⟨hi, rfl⟩
  · rw [serve_ok _ hi]
    cases hreturns : returnsWord i with
    | true => exact exec_answer_withHostSide hreturns hexec
    | false =>
      have hsame := (exec_writesOnlyListed hexec).returned.resolve_right (by simp [hreturns])
      rw [hnone hsame]
      exact exec_withHostSide hreturns hexec
  · have hsame := (illegalCommand_writesOnlyListed .nop s).returned.resolve_right (by simp [returnsWord])
    rw [hnone hsame, serve_illegal _ hi, illegalCommand_withHostSide]

/-- An access leaves the queue alone and returns at most one word. -/
theorem serve_hostSide_cases {a : Access} (h : serve a s = .next t) : t.pending = s.pending ∧
    (t.returned = s.returned ∨
      ∃ i w, decode a = .ok i ∧ returnsWord i = true ∧ t.returned = s.returned ++ [w]) := by
  rcases serve_writesOnlyListed h with ⟨i, hi, hw⟩ | hw
  · exact ⟨hw.pending, hw.returned.imp_right fun ⟨hreturns, w, hlast⟩ => ⟨i, w, hi, hreturns, hlast⟩⟩
  · exact ⟨hw.pending, .inl (hw.returned.resolve_right (by simp [returnsWord]))⟩

end

/-- Settles O57: the bodies of the commands are blind to the host's side, and the answers of `POP` and `RD`
go behind what was returned before. -/
theorem hostSideDoesNotInfluenceEngine : Obligations.HostSideDoesNotInfluenceEngine :=
  ⟨fun _ _ _ _ _ => serve_withHostSide, fun _ _ _ => serve_hostSide_cases⟩

/-! ## The queue of accesses (R70; log entry 1) -/

/-- An access is answered in every state or refused in every state. -/
theorem serve_completes_or_refused (a : Access) :
    (∀ s, ∃ t, serve a s = .next t) ∨ ∃ r, ∀ s, serve a s = .refused r := by
  cases a with
  | regWrite off size v =>
    rcases locate_cases off size with ⟨-, he⟩ | ⟨-, -, -, he⟩ | ⟨r, rfl, rfl, -⟩
    · exact .inr ⟨_, fun s => serve_notAligned s (decode_regWrite_of_locate v he)⟩
    · exact .inr ⟨_, fun s => serve_outside s (decode_regWrite_of_locate v he)⟩
    · exact .inl (serve_wordWrite_completes r v)
  | regRead off size =>
    rcases locate_cases off size with ⟨-, he⟩ | ⟨-, -, -, he⟩ | ⟨r, rfl, rfl, -⟩
    · exact .inr ⟨_, fun s => serve_notAligned s (decode_regRead_of_locate he)⟩
    · exact .inr ⟨_, fun s => serve_outside s (decode_regRead_of_locate he)⟩
    · exact .inl (serve_wordRead_completes r)
  | reset => exact .inl fun _ => ⟨_, rfl⟩

section
variable {a : Access} {s t : State}

/-- Serving leaves the queue alone, so the queue may be put there before or after. -/
theorem serve_withPending (q : List Access) (h : serve a s = .next t) :
    serve a { s with pending := q } = .next { t with pending := q } := by
  have hserve := serve_withHostSide (q := q) (ws := s.returned) h
  have hwords : s.returned ++ t.returned.drop s.returned.length = t.returned := by
    obtain ⟨-, hsame | ⟨_, _, -, -, hlast⟩⟩ := serve_hostSide_cases h
    · rw [hsame, List.drop_length, List.append_nil]
    · rw [hlast, List.drop_left]
  rw [hwords] at hserve
  exact hserve

theorem run_succ_next {k : Nat} (h : step s = .next t) : core.run (k + 1) s = core.run k t := by
  have hstep : core.step s = .next t := h
  simp only [Host.Core.run, hstep]

theorem run_succ_refused {k : Nat} {r : Refusal} (h : step s = .refused r) : core.run (k + 1) s = .refused r := by
  have hstep : core.step s = .refused r := h
  simp only [Host.Core.run, hstep]

theorem serveAll_cons_next {as : List Access} (h : serve a s = .next t) :
    serveAll (a :: as) s = serveAll as t := by
  simp only [serveAll, h]

theorem serveAll_cons_refused {as : List Access} {r : Refusal} (h : serve a s = .refused r) :
    serveAll (a :: as) s = .refused r := by
  simp only [serveAll, h]

end

/-- Settles O9, by induction on the accesses: a step serves the first, which leaves the rest in the queue. -/
theorem runServesPendingAccessesInOrder : Obligations.RunServesPendingAccessesInOrder := by
  intro as
  induction as with
  | nil => exact fun _ => rfl
  | cons a as ih =>
    intro s
    have hstep : step { s with pending := a :: as } = serve a { s with pending := as } := step_pending rfl
    rcases serve_completes_or_refused a with hnext | ⟨r, hrefused⟩
    · obtain ⟨t, ht⟩ := hnext s
      rw [serveAll_cons_next (serve_withPending [] ht), ← ih t]
      exact run_succ_next (hstep.trans (serve_withPending as ht))
    · rw [serveAll_cons_refused (hrefused _)]
      exact run_succ_refused (hstep.trans (hrefused _))

end Sys2Proof.Machine
end

section
/-!
Host programs (30_encoding.md rules R115, R116): what a list of accesses does as a whole, and with it the
laws of the engine that take more than one command, those of the checksum engine, the framer and the output
port. `CLASSIFY` after `MKPL` (43_payload.md) stands at the end.
-/

open Sys2Proof.Claims

namespace Sys2Proof.Machine

/-! ## Serving a list of accesses -/

section
variable {s t : State} {i : Instr} {as bs : List Access}

theorem serveAll_encode_cons (hi : i.wellFormed = true) (h : exec i s = .next t) :
    serveAll (encode i :: as) s = serveAll as t :=
  serveAll_cons_next ((serve_encode s hi).trans h)

theorem serveAll_append_next (h : serveAll as s = .next t) : serveAll (as ++ bs) s = serveAll bs t := by
  simp only [serveAll_append, h]

theorem withIbuf_self {x : Bytes} (h : s.ibuf = x) : { s with ibuf := x } = s := by
  subst h; rfl

theorem withObuf_self {x : Bytes} (h : s.obuf = x) : { s with obuf := x } = s := by
  subst h; rfl

end

/-- Settles O51: three commands, the first of which opens the gate for the others. -/
theorem sessionStartRestoresResetValues : Obligations.SessionStartRestoresResetValues := by
  intro s
  have hflush : exec (.flush true true) (clearFault s) = .next { clearFault s with ibuf := [], obuf := [] } :=
    command_clear_ok rfl
  have hseq : exec .seqClr { clearFault s with ibuf := [], obuf := [] } =
      .next { clearFault s with ibuf := [], obuf := [], seq := 0 } := command_clear_ok rfl
  calc serveAll [encode .clrErr, encode (.flush true true), encode .seqClr] s
    _ = serveAll [encode (.flush true true), encode .seqClr] (clearFault s) := serveAll_encode_cons rfl rfl
    _ = serveAll [encode .seqClr] { clearFault s with ibuf := [], obuf := [] } := serveAll_encode_cons rfl hflush
    _ = .next { clearFault s with ibuf := [], obuf := [], seq := 0 } := serveAll_encode_cons rfl hseq

/-! ## `PUSHS` (R116, R226) -/

section
variable {s t : State} {i : Instr}

theorem exec_push_room {b : Byte} (hs : s.err = 0) (hroom : s.ibuf.length < 8204) :
    exec (.push b) s = .next { s with ibuf := s.ibuf ++ [b] } := by
  rw [exec_push b hs, if_neg hroom.ne]

theorem serveAll_pushs {x : Bytes} (hs : s.err = 0) (hroom : s.ibuf.length + x.length ≤ 8204) :
    serveAll (pushs x) s = .next { s with ibuf := s.ibuf ++ x } := by
  induction x generalizing s with
  | nil => rw [List.append_nil]; rfl
  | cons b x ih =>
    rw [List.length_cons] at hroom
    have hpush := exec_push_room (b := b) hs (by omega)
    have hrest := ih (s := { s with ibuf := s.ibuf ++ [b] }) hs (by simp; omega)
    rw [List.append_assoc, List.singleton_append] at hrest
    exact (serveAll_encode_cons rfl hpush).trans hrest

/-- An operand pushed into an empty `IBUF`, then the instruction that works on it. -/
theorem serveAll_pushs_encode {x : Bytes} (hs : s.err = 0) (hempty : s.ibuf = []) (hroom : x.length ≤ 8204)
    (hi : i.wellFormed = true) (h : exec i { s with ibuf := x } = .next t) :
    serveAll (pushs x ++ [encode i]) s = .next t := by
  have hpushs := serveAll_pushs (x := x) hs (by simpa [hempty] using hroom)
  rw [hempty, List.nil_append] at hpushs
  rw [serveAll_append_next hpushs]
  exact serveAll_encode_cons hi h

/-! ## Streaming a CRC (R132, R134 to R137) -/

/-- A piece pushed and folded in by `CRC_BUF`. -/
theorem serveAll_pushs_crcBuf {x : Bytes} (hs : s.err = 0) (hempty : s.ibuf = []) (hroom : x.length ≤ 8204) :
    serveAll (pushs x ++ [encode .crcBuf]) s = .next { s with crc := crcFold csf s.crc x } := by
  have hself := congrArg (fun u : State => { u with crc := crcFold csf s.crc x }) (withIbuf_self hempty)
  exact serveAll_pushs_encode hs hempty hroom rfl
    ((command_clear_ok (s := { s with ibuf := x }) hs).trans (congrArg Host.Outcome.next hself))

theorem serveAll_pushs_crc16 {x : Bytes} (hs : s.err = 0) (hempty : s.ibuf = []) (hroom : x.length ≤ 8204) :
    serveAll (pushs x ++ [encode .crc16]) s = .next { s with crc := crc16 csf x } := by
  have hself := congrArg (fun u : State => { u with crc := crc16 csf x }) (withIbuf_self hempty)
  exact serveAll_pushs_encode hs hempty hroom rfl
    ((command_clear_ok (s := { s with ibuf := x }) hs).trans (congrArg Host.Outcome.next hself))

end

/-- Settles O16: the fold may be cut anywhere, `CRC_INIT` is where both start, and each `CRC_BUF` leaves
`IBUF` as empty as it was. -/
theorem streamedCrcEqualsOneShot : Obligations.StreamedCrcEqualsOneShot := by
  refine ⟨fun s b hs hempty => ⟨serveAll_pushs_crcBuf hs hempty (by simp), ?_⟩, fun s x y hs hempty hroom => ?_⟩
  · exact serveAll_encode_cons (i := .crcByte b) rfl (command_clear_ok hs)
  · have hinit : serveAll (encode .crcInit :: pushs x ++ [encode .crcBuf]) s =
        .next { s with crc := crcFold csf 0xFFFF x } := by
      rw [List.cons_append, serveAll_encode_cons (i := .crcInit) rfl (command_clear_ok hs)]
      exact serveAll_pushs_crcBuf (s := { s with crc := csf.crcInit }) hs hempty (by omega)
    refine ⟨?_, serveAll_pushs_crc16 hs hempty (by simpa using hroom)⟩
    rw [List.append_assoc, serveAll_append_next hinit, crcFold_append]
    exact serveAll_pushs_crcBuf (s := { s with crc := crcFold csf 0xFFFF x }) hs hempty (by omega)

/-! ## `POPALL` (R27, R116, R227) -/

theorem popWord_valid (b : Byte) : (popWord b).getLsbD 8 = true := by
  simp only [popWord, BitVec.getLsbD_append]
  simp

theorem popWord_byte (b : Byte) : (popWord b).extractLsb' 0 8 = b := BitVec.extractLsb'_append_eq_right

/-- The words of a `POPALL`: each byte with its valid flag, then the 0 that ends it. -/
def poppedWords (x : Bytes) : List Word := x.map popWord ++ [0]

theorem poppedWords_length (x : Bytes) : (poppedWords x).length = x.length + 1 := by simp [poppedWords]

theorem yielded_poppedWords (x : Bytes) : yielded (poppedWords x) = x := by
  induction x with
  | nil => rfl
  | cons b x ih =>
    have hcons : yielded (popWord b :: poppedWords x) = (popWord b).extractLsb' 0 8 :: yielded (poppedWords x) := by
      simp [yielded, popWord_valid]
    exact hcons.trans (congrArg₂ List.cons (popWord_byte b) ih)

theorem serveAll_pops {x : Bytes} {s : State} (hx : s.obuf = x) :
    serveAll (List.replicate (x.length + 1) (encode .pop)) s =
      .next { s with obuf := [], returned := s.returned ++ poppedWords x } := by
  induction x generalizing s with
  | nil =>
    have hself := congrArg (fun u : State => answer 0 u) (withObuf_self hx)
    exact (serveAll_encode_cons rfl (exec_pop_empty hx)).trans (congrArg Host.Outcome.next hself.symm)
  | cons b x ih =>
    have hrest := ih (s := answer (popWord b) { s with obuf := x }) rfl
    rw [answer_returned, List.append_assoc] at hrest
    exact (serveAll_encode_cons rfl (exec_pop_cons hx)).trans hrest

theorem serveAll_popAll (s : State) : serveAll (popAll s) s =
    .next { s with obuf := [], returned := s.returned ++ poppedWords s.obuf } := serveAll_pops rfl

/-- Settles O49, by induction on `OBUF`: each `POP` takes its front byte, and the one after them finds none. -/
theorem popAllYieldsOutputInOrder : Obligations.PopAllYieldsOutputInOrder := fun s =>
  ⟨poppedWords s.obuf, serveAll_popAll s, yielded_poppedWords s.obuf, poppedWords_length s.obuf,
    List.getLast?_concat⟩

/-! ## Building a frame (R172, R180, R344) -/

section
variable (rel dip : Bool) (kind : Kind) (seq : SeqNum) {p : Bytes}

theorem wire_length_le (hp : p.length ≤ 4095) : (wire rel dip kind seq p).length ≤ 8204 := by
  obtain ⟨-, hmax⟩ := frame_length_bounds csf seq dip rel kind p
  rw [wire_eq_frame]
  omega

theorem body_length (p : Bytes) : (body rel dip kind seq p).length = p.length + 4 := by
  rw [body_eq_frameBody, frameBody_length]

/-- The wire bytes are the body and its CRC, wrapped. -/
theorem wire_eq_wrap (p : Bytes) : wire rel dip kind seq p =
    wrap csf (body rel dip kind seq p ++ le16 (bodyCrc rel dip kind seq p)) := rfl

/-- With room in `OBUF` a payload of legal length is framed. -/
theorem framed_room {s : State} (hlen : s.ibuf.length ≤ 4095)
    (hroom : s.obuf.length + (wire rel dip kind seq s.ibuf).length ≤ 8204) :
    framed rel dip kind seq s = { s with
      obuf := s.obuf ++ wire rel dip kind seq s.ibuf, ibuf := [], crc := bodyCrc rel dip kind seq s.ibuf } := by
  rw [framed, if_neg (Nat.not_lt.mpr hlen), if_neg (Nat.not_lt.mpr hroom)]

theorem deliver_room {y : Bytes} {s : State} (hroom : s.obuf.length + y.length ≤ 8204) :
    deliver y s = { s with obuf := s.obuf ++ y, ibuf := [] } := if_neg (Nat.not_lt.mpr hroom)

variable {s : State}

theorem serveAll_pushs_frame (hs : s.err = 0) (hempty : s.ibuf = []) (hp : p.length ≤ 4095)
    (hroom : s.obuf.length + (wire rel dip kind seq p).length ≤ 8204) :
    serveAll (pushs p ++ [encode (.frame rel dip kind seq)]) s = .next { s with
      obuf := s.obuf ++ wire rel dip kind seq p, ibuf := [], crc := bodyCrc rel dip kind seq p } := by
  have hexec := exec_frame rel dip kind seq (s := { s with ibuf := p }) hs
  rw [framed_room rel dip kind seq (s := { s with ibuf := p }) hp hroom] at hexec
  exact serveAll_pushs_encode hs hempty (by omega) rfl hexec

/-- With a frame's CRC in `CRC`, `WRAP` of the frame's body and that CRC delivers its wire bytes. -/
theorem serveAll_pushs_wrap_body (hs : s.err = 0) (hempty : s.ibuf = []) (hp : p.length ≤ 4095)
    (hcrc : s.crc = bodyCrc rel dip kind seq p)
    (hroom : s.obuf.length + (wire rel dip kind seq p).length ≤ 8204) :
    serveAll (pushs (body rel dip kind seq p ++ le16 s.crc) ++ [encode .wrap]) s =
      .next { s with obuf := s.obuf ++ wire rel dip kind seq p, ibuf := [] } := by
  rw [wire_eq_wrap, ← hcrc] at hroom ⊢
  refine serveAll_pushs_encode hs hempty ?_ rfl ((exec_wrap ?_).trans ?_)
  · rw [List.length_append, body_length, le16_length]
    omega
  · exact hs
  · exact congrArg Host.Outcome.next (deliver_room hroom)

end

/-- Settles O28: neither the test on the length nor the test on room can fail. -/
theorem legalFrameFitsEmptyOutput : Obligations.LegalFrameFitsEmptyOutput := by
  intro rel dip kind seq s hs hout hlen
  rw [exec_frame rel dip kind seq hs, framed_emptyOutput rel dip kind seq hout hlen]

/-- Settles O34: the CRC of the pipeline is the frame's, and what it wraps is the frame's body. -/
theorem frameEqualsPipeline : Obligations.FrameEqualsPipeline := by
  intro rel dip kind seq p s hs hempty hp hroom
  have hbody := body_length rel dip kind seq p
  have hcrc16 := serveAll_pushs_crc16 (x := body rel dip kind seq p) hs hempty (by omega)
  have hframe := serveAll_pushs_frame rel dip kind seq hs hempty hp hroom
  generalize hx : bodyCrc rel dip kind seq p = x at hframe
  rw [← bodyCrc, hx] at hcrc16
  exact ⟨_, _, hcrc16,
    serveAll_pushs_wrap_body rel dip kind seq (s := { s with crc := x }) hs hempty hp hx.symm hroom, hframe⟩

/-! ## Reading a frame back (R178, R180) -/

/-- Settles O30: with four bytes decoded, `HDR` and `ERR` are given by them in both outcomes. -/
theorem parseReadsFourBytesOnly : Obligations.ParseReadsFourBytesOnly := by
  intro s t u v p q r r' d0 d1 d2 d3 hs ht hp hq hd hd' hu hv
  by_cases hsum : d0 + d1 + d2 + d3 = 0
  · rw [exec_parse_header hs hp hd hsum] at hu
    rw [exec_parse_header ht hq hd' hsum] at hv
    cases hu; cases hv
    exact ⟨rfl, hs.trans ht.symm⟩
  · rw [exec_parse_badChecksum hs hp hd hsum] at hu
    rw [exec_parse_badChecksum ht hq hd' hsum] at hv
    cases hu; cases hv
    exact ⟨rfl, rfl⟩

/-- A header made by `mkhdr` with anything after it is parsed without a fault. -/
theorem parseDecoded_mkhdr (rel dip : Bool) (ack seq : SeqNum) (kind : Kind) (n : BitVec 12) (x : Bytes) :
    parseDecoded (mkhdr rel dip ack seq kind n ++ x) =
      ⟨some (x.length + 4), some ⟨true, n, kind, rel, dip, ack, seq⟩, none⟩ := by
  have hfields := headerFields_mkhdr rel dip ack seq kind n (mkhdr_eq rel dip ack seq kind n)
  have hvalid := checksumValid_headerChecksum (headerByte0 rel dip ack seq) (headerByte1 kind n) (headerByte2 n)
  simp only [mkhdr_eq, List.cons_append, List.nil_append, parseDecoded_header, hfields, hvalid, if_true]

/-- Settles O32: a frame decodes to its body and CRC, and the body begins with the header of its operands. -/
theorem parseOfFrameReadsBack : Obligations.ParseOfFrameReadsBack := by
  intro c seq dip rel kind p hc _
  have hdecoded := decoded_frame hc seq dip rel kind p
  refine ⟨?_, hdecoded⟩
  obtain ⟨y, hspan, hunstuff⟩ := Option.bind_eq_some_iff.mp hdecoded
  rw [parse_of_decoded hspan hunstuff, frameBody, List.append_assoc, parseDecoded_mkhdr, List.length_append,
    le16_length]

/-- `PARSE` of the wire bytes of a frame. -/
theorem exec_parse_wire (rel dip : Bool) (kind : Kind) (seq : SeqNum) {p : Bytes} {s : State}
    (hp : p.length ≤ 4095) (hs : s.err = 0) :
    exec .parse { s with ibuf := wire rel dip kind seq p } = .next { s with
      ibuf := [], hdr := hdrWord true ⟨true, BitVec.ofNat 12 p.length, kind, rel, dip, 0, seq⟩,
      dlen := BitVec.ofNat 14 (p.length + 6) } := by
  obtain ⟨hparse, -⟩ := parseOfFrameReadsBack csf seq dip rel kind p csf_legal hp
  rw [← wire_eq_frame] at hparse
  exact exec_parse_ok (s := { s with ibuf := wire rel dip kind seq p }) hs hparse rfl

/-- Settles O33: what `POPALL` yields is what `FRAME` put in `OBUF`, and it fits `IBUF`. -/
theorem framePopPushParseRoundTrip : Obligations.FramePopPushParseRoundTrip := by
  intro rel dip kind seq s hs hout hlen
  have hframe := legalFrameFitsEmptyOutput rel dip kind seq s hs hout hlen
  refine ⟨_, _, serveAll_encode_cons rfl hframe, serveAll_popAll _, rfl, ?_, ?_⟩
  · rw [List.drop_left, yielded_poppedWords]
  · exact serveAll_pushs_encode (i := .parse) hs rfl (wire_length_le rel dip kind seq hlen) rfl
      (exec_parse_wire rel dip kind seq hlen hs)

/-! ## `CLASSIFY` after `MKPL` (R10, R200, R209) -/

theorem unle32_le32 (v : Word) :
    unle32 (v.extractLsb' 0 8) (v.extractLsb' 8 8) (v.extractLsb' 16 8) (v.extractLsb' 24 8) = v := by
  have hhigh : v.extractLsb' 24 8 ++ v.extractLsb' 16 8 = v.extractLsb' 16 16 :=
    BitVec.extractLsb'_append_extractLsb'_eq_extractLsb' rfl
  have hmid : v.extractLsb' 16 16 ++ v.extractLsb' 8 8 = v.extractLsb' 8 24 :=
    BitVec.extractLsb'_append_extractLsb'_eq_extractLsb' rfl
  have hall : v.extractLsb' 8 24 ++ v.extractLsb' 0 8 = v.extractLsb' 0 32 :=
    BitVec.extractLsb'_append_extractLsb'_eq_extractLsb' rfl
  rw [unle32, hhigh, hmid, hall, BitVec.extractLsb'_eq_self]

/-- Every payload begins with its type's opcode, which is all that is looked at. -/
theorem inferType_payloadOf (c : Params) (t : PacketType) (x : Bytes) (s : State) :
    inferType c (payloadOf c t x s) = codeOfOpcode c (opcodeOf c t) := by
  cases t <;> exact congrArg (codeOfOpcode c) (unle32_le32 _)

/-- Settles O40: the search finds a type with the payload's opcode, and only one type has it. -/
theorem classifyInvertsMarshalling : Obligations.ClassifyInvertsMarshalling := by
  intro c t x s hdistinct
  rw [inferType_payloadOf]
  rcases codeOfOpcode_cases c (opcodeOf c t) with ⟨u, hcode, hu, -⟩ | ⟨-, hnone⟩
  · rw [hcode, hdistinct u t hu]
  · exact absurd rfl (hnone t)

end Sys2Proof.Machine
end
